-- ==== Sys2Proof/Word.lean ====
section
/-! DEFINITION. The plain word types of the AF416: bytes, addresses, bus data and line numbers. -/

namespace Sys2Proof

/-- One byte of the management link or of a descriptor image. -/
abbrev Byte := BitVec 8

/-- A byte address of the 32-bit upstream or memory address space (00_scope.md, Conventions). -/
abbrev Addr := BitVec 32

/-- The data of one request, answer or transaction: the 64-bit data of a port (00_scope.md, Pin summary).
Byte `j` of the data, the one at the lowest address plus `j`, stands in bits `8*j+7 .. 8*j` (log entry 1). -/
abbrev Data := BitVec 64

/-- A line number, 0 to 15 (R1). -/
abbrev LineNo := Fin 16

end Sys2Proof
end

