-- ==== Sys2Proof/Config.lean ====
section
/-! DEFINITION. What the AF416 fixes once: the capacities of its lists and queues, the frame limit and the
identification bytes. The manual leaves no value free, so there is no opaque constant here. -/

namespace Sys2Proof

/-- Places of one port's open list (R103). -/
def Config.openPlaces : Nat := 4

/-- Places of the memory queue (R113). -/
def Config.memPlaces : Nat := 8

/-- Places of the incident queue (R144). -/
def Config.incidentPlaces : Nat := 32

/-- The largest repeat of one incident record (R143). -/
def Config.repeatMax : Nat := 255

/-- The largest number of bytes of a frame (R150). -/
def Config.frameMax : Nat := 40

/-- The number of bytes of the byte address space: every span ends at or below it (R7). -/
def Config.topOfSpace : Nat := 0x100000000

/-- The bytes IDENTIFY returns: vendor code, part code in little-endian order, revision (R155). -/
def Config.identity : List Byte := [0x43, 0x16, 0x04, 0x02]

end Sys2Proof
end

