-- ==== Sys2Proof/Syntax.lean ====
section
/-! DEFINITION. The commands the AF416 takes: one constructor of `Instr` for each row of spec/opcode_table.json.
A row that is a frame of the management link carries the frame's inbound bytes after byte 0, since R151 judges the
length and the line byte of every frame when CSN rises. -/

namespace Sys2Proof

/-- The two upstream ports (00_scope.md). -/
inductive Port where
  | A
  | B
  deriving DecidableEq, Repr

/-- A request's size: 1, 2, 4 or 8 bytes (00_scope.md, Terms: Request). -/
inductive Size where
  | one
  | two
  | four
  | eight
  deriving DecidableEq, Repr

/-- A request's or transaction's direction, with the write data where it is a write. -/
inductive Access where
  | read
  | write (data : Data)
  deriving DecidableEq, Repr

/-- The status of an answer (00_scope.md, Terms: Answer). -/
inductive Status where
  | okay
  | error
  deriving DecidableEq, Repr

/-- The block whose event hands incidents to the incident unit. Incidents of one source arrive in the order they
were handed; incidents of different sources arrive in either order (R141, log entry 5).
`lineEngine`: a take, with the wrap commit that ends it. `intake p`: an expiry of port `p`. `memoryPort`: a memory
answer. `commitUnit`: a mark or an IMMEDIATE ARM. `link`: FLUSH and DISENGAGE. -/
inductive Source where
  | lineEngine
  | intake (p : Port)
  | memoryPort
  | commitUnit
  | link
  deriving DecidableEq, Repr

/-- The commands of the management link, one for each code of R160. -/
inductive LinkCode where
  | result
  | identify
  | stage
  | readStaged
  | readActive
  | arm
  | disarm
  | mark
  | flush
  | queryLine
  | queryPart
  | engage
  | disengage
  | takeIncident
  | setEnables
  | clearOverflow
  | clear
  deriving DecidableEq, Repr

/-- One command of the AF416, one constructor per row of spec/opcode_table.json. -/
inductive Instr where
  /-- REQUEST_ACCEPTANCE (R103): the master of `port` presents a request and the intake may accept it. -/
  | requestAcceptance (port : Port) (access : Access) (addr : Addr) (size : Size)
  /-- TAKE (R108): the line engine takes one entry, if it can. -/
  | take
  /-- PRESENT_TRANSACTION (R113): the memory accepts the oldest transaction it has not accepted yet. -/
  | presentTransaction
  /-- MEMORY_ANSWER (R113): the memory answers, with a status and the data it drives. -/
  | memoryAnswer (status : Status) (data : Data)
  /-- ANSWER_DELIVERY (R105): the master of `port` accepts the answer presented to it. -/
  | answerDelivery (port : Port)
  /-- TICK (R89): one tick of 1 microsecond. -/
  | tick
  /-- EXPIRY (R97): the park deadline of `port` is reached. -/
  | expiry (port : Port)
  /-- MARK_EDGE (R126): a rising edge on the MARK input. -/
  | markEdge
  /-- POWER_ON_RESET (R25): PORSTN goes low. -/
  | powerOnReset
  /-- SYSTEM_RESET (R26): SYSRSTN goes low. -/
  | systemReset
  /-- INCIDENT_ARRIVAL (R143): the oldest incident handed by `source` and not yet dealt with reaches the unit. -/
  | incidentArrival (source : Source)
  /-- BADFRAME (R151): a frame with these inbound bytes: none, more than 40, or an unknown code in byte 0. -/
  | badframe (bytes : List Byte)
  /-- RESULT (R152), code 0x00; `rest` is the frame from byte 1 on, here and in every row below. -/
  | result (rest : List Byte)
  /-- IDENTIFY (R155), code 0x01. -/
  | identify (rest : List Byte)
  /-- STAGE (R119), code 0x10: line byte, offset, count, data bytes. -/
  | stage (rest : List Byte)
  /-- READ_STAGED (R155), code 0x11: line byte. -/
  | readStaged (rest : List Byte)
  /-- READ_ACTIVE (R155), code 0x12: line byte. -/
  | readActive (rest : List Byte)
  /-- ARM (R120), code 0x13: line byte, trigger. -/
  | arm (rest : List Byte)
  /-- DISARM (R125), code 0x14: line byte. -/
  | disarm (rest : List Byte)
  /-- MARK (R126), code 0x15: 0xFF. -/
  | mark (rest : List Byte)
  /-- FLUSH (R23), code 0x16: line byte. -/
  | flush (rest : List Byte)
  /-- QUERY_LINE (R158), code 0x20: line byte. -/
  | queryLine (rest : List Byte)
  /-- QUERY_PART (R158), code 0x21: 0xFF. -/
  | queryPart (rest : List Byte)
  /-- ENGAGE (R43), code 0x30: 0xFF. -/
  | engage (rest : List Byte)
  /-- DISENGAGE (R44), code 0x31: 0xFF. -/
  | disengage (rest : List Byte)
  /-- TAKE_INCIDENT (R146), code 0x40: 0xFF. -/
  | takeIncident (rest : List Byte)
  /-- SET_ENABLES (R142), code 0x41: 0xFF, enables. -/
  | setEnables (rest : List Byte)
  /-- CLEAR_OVERFLOW (R145), code 0x42: 0xFF. -/
  | clearOverflow (rest : List Byte)
  /-- CLEAR (R157), code 0x50: 0xFF. -/
  | clear (rest : List Byte)
  /-- SYSTEM_RESET_RELEASE (R106): SYSRSTN returns high. -/
  | systemResetRelease
  /-- POWER_ON_RESET_RELEASE (R153): PORSTN returns high. -/
  | powerOnResetRelease
  deriving DecidableEq, Repr

end Sys2Proof
end

