-- ==== Sys2Proof/Decode.lean ====
section
/-! DEFINITION. Reading commands: the word decoder the host asks for, the command codes of the management link with
their fixed lengths and line bytes (R160), and the serial order of a frame's bits (R150). -/

namespace Sys2Proof

/-- No row of spec/opcode_table.json gives bits, so no word spells a command. -/
def decodeTableWord (_nbits _w : Nat) : Option Instr := none

/-- The number of bytes of a size. -/
def Size.bytes : Size → Nat
  | .one => 1
  | .two => 2
  | .four => 4
  | .eight => 8

/-- The code of a link command, frame byte 0 (R160). -/
def LinkCode.toByte : LinkCode → Byte
  | .result => 0x00
  | .identify => 0x01
  | .stage => 0x10
  | .readStaged => 0x11
  | .readActive => 0x12
  | .arm => 0x13
  | .disarm => 0x14
  | .mark => 0x15
  | .flush => 0x16
  | .queryLine => 0x20
  | .queryPart => 0x21
  | .engage => 0x30
  | .disengage => 0x31
  | .takeIncident => 0x40
  | .setEnables => 0x41
  | .clearOverflow => 0x42
  | .clear => 0x50

/-- The link command a code names; every other byte-0 value is an unknown code (R160). -/
def LinkCode.ofByte (b : Byte) : Option LinkCode :=
  match b.toNat with
  | 0x00 => some .result
  | 0x01 => some .identify
  | 0x10 => some .stage
  | 0x11 => some .readStaged
  | 0x12 => some .readActive
  | 0x13 => some .arm
  | 0x14 => some .disarm
  | 0x15 => some .mark
  | 0x16 => some .flush
  | 0x20 => some .queryLine
  | 0x21 => some .queryPart
  | 0x30 => some .engage
  | 0x31 => some .disengage
  | 0x40 => some .takeIncident
  | 0x41 => some .setEnables
  | 0x42 => some .clearOverflow
  | 0x50 => some .clear
  | _ => none

/-- Whether a frame of this command, with the bytes `rest` after byte 0, has a byte count the command acts on:
RESULT 2 to 40 bytes, STAGE exactly 4 + count, every other command at least its fixed length (R151, checks 4 and 5). -/
def LinkCode.lengthOk (c : LinkCode) (rest : List Byte) : Bool :=
  let n := rest.length + 1
  match c with
  | .result => decide (2 ≤ n ∧ n ≤ Config.frameMax)
  | .stage => decide (4 ≤ n ∧ n = 4 + ((rest[2]?).getD 0).toNat)
  | .arm => decide (3 ≤ n)
  | .setEnables => decide (3 ≤ n)
  | _ => decide (2 ≤ n)

/-- The line a line command's line byte names: 0 to 15 (R151, check 6). -/
def lineOfByte (b : Byte) : Option LineNo :=
  if h : b.toNat < 16 then some ⟨b.toNat, h⟩ else none

/-- The bits of one byte in the order they are shifted, most significant first (R150). -/
def bitsOfByte (b : Byte) : List Bool :=
  [b.getLsbD 7, b.getLsbD 6, b.getLsbD 5, b.getLsbD 4, b.getLsbD 3, b.getLsbD 2, b.getLsbD 1, b.getLsbD 0]

/-- The byte eight shifted bits form, the first the most significant (R150). -/
def byteOfBits (b7 b6 b5 b4 b3 b2 b1 b0 : Bool) : Byte :=
  BitVec.ofNat 8 (128 * b7.toNat + 64 * b6.toNat + 32 * b5.toNat + 16 * b4.toNat + 8 * b3.toNat + 4 * b2.toNat
    + 2 * b1.toNat + b0.toNat)

/-- The bits shifted while a frame of these whole bytes passes (R150). -/
def bitsOfFrame (bytes : List Byte) : List Bool := bytes.flatMap bitsOfByte

/-- The whole bytes of a frame, from the bits shifted between the falling and the rising edge of CSN; the bits of an
incomplete last byte are discarded (R150). -/
def frameOfBits : List Bool → List Byte
  | b7 :: b6 :: b5 :: b4 :: b3 :: b2 :: b1 :: b0 :: more => byteOfBits b7 b6 b5 b4 b3 b2 b1 b0 :: frameOfBits more
  | _ => []

end Sys2Proof
end

