-- ==== Sys2Proof/Machine/State.lean ====
section
/-! DEFINITION. The state of the AF416, block by block as 00_scope.md's block overview divides it, its value after
power-on reset, and the reasons a step can stop. -/

namespace Sys2Proof.Machine

/-- The part mode (R27). -/
inductive Mode where
  | transparent
  | engaged
  deriving DecidableEq, Repr

/-- A line is IDLE or LIVE (R2). -/
inductive LineState where
  | idle
  | live
  deriving DecidableEq, Repr

/-- Why the clash check refuses a commit (R130). -/
inductive ClashReason where
  | windowClash
  | ringClash
  deriving DecidableEq, Repr

/-- A line's last commit outcome (R22). -/
inductive CommitOutcome where
  | noneYet
  | appliedSoft
  | appliedHard
  | refused (reason : ClashReason) (other : LineNo)
  | cancelled
  deriving DecidableEq, Repr

/-- A 32-byte descriptor image, byte 0 first (R161). -/
structure Image where
  bytes : Vector Byte 32
  deriving DecidableEq, Repr

/-- One record of the line table (R1). The active descriptor is held as its 32 image bytes (R9, R161). -/
structure Line where
  state : LineState
  active : Image
  head : Nat
  tail : Nat
  fill : Nat
  walkA : Nat
  walkB : Nat
  suspect : Bool
  generation : BitVec 8
  lastOutcome : CommitOutcome
  deriving DecidableEq, Repr

/-- The line engine's state: the line table, the part mode, the last-chosen port and each port's urgency
(R1, R27, R111, R112). URGA and URGB show `urgentA` and `urgentB`. -/
structure LineEngine where
  lines : Vector Line 16
  mode : Mode
  lastChosen : Port
  urgentA : Bool
  urgentB : Bool
  deriving DecidableEq, Repr

/-- The trigger of a pending commit (R118). -/
inductive Trigger where
  | mark
  | wrap
  deriving DecidableEq, Repr

/-- The commit unit's state: staged images, pending commits and the mark count (R118). -/
structure CommitUnit where
  staged : Vector Image 16
  pendingCommit : Vector (Option Trigger) 16
  markCount : BitVec 16
  deriving DecidableEq, Repr

/-- An operation of a line, named as R32 and R33 name it, with the tap index of a tap operation (R39). -/
inductive LineOp where
  | push
  | pop
  | newestRead
  | walkRead
  | walkPeek
  | walkAmend
  | levelRead
  | discard
  | generationRead
  | tapRead (k : Nat)
  | tapPeek (k : Nat)
  | tapAmend (k : Nat)
  deriving DecidableEq, Repr

/-- The detail of a SHAPE refusal (section 2.3). -/
inductive ShapeDetail where
  | straddle
  | misaligned
  | wrongSize
  | readOnlySlot
  | amendDenied
  deriving DecidableEq, Repr

/-- The direction of a plain access a guard forbids (R37). -/
inductive GuardDetail where
  | read
  | write
  deriving DecidableEq, Repr

/-- The kind and detail of a refusal (R39). -/
inductive RefusedAs where
  | shape (detail : ShapeDetail)
  | guard (detail : GuardDetail)
  deriving DecidableEq, Repr

/-- The class of a taken entry (R39). -/
inductive EntryClass where
  | plain
  | operation (line : LineNo) (op : LineOp)
  | refused (how : RefusedAs)
  deriving DecidableEq, Repr

/-- The state of an open-list entry (R104). -/
inductive EntryState where
  | waiting
  | parked
  | released
  | issued
  | ready
  deriving DecidableEq, Repr

/-- An answer: a status and, for a read, read data (R105). -/
structure Answer where
  status : Status
  readData : Option Data
  deriving DecidableEq, Repr

/-- An entry of an open list (R104). Its deadline is the port's (`Intake.deadline`). `tag` is the model's own: it tells
the entries of one port apart, so that a transaction can name its origin entry (log entry 2). -/
structure Entry where
  tag : Nat
  access : Access
  addr : Addr
  size : Size
  state : EntryState
  cls : Option EntryClass
  answer : Option Answer
  deriving DecidableEq, Repr

/-- A port intake: its open list, oldest entry first, and its park deadline (R89, R103). `nextTag` is the model's own:
the tag the next accepted entry receives (log entry 2). -/
structure Intake where
  openList : List Entry
  deadline : Option (BitVec 32)
  nextTag : Nat
  deriving DecidableEq, Repr

/-- What a transaction is for (R113). -/
inductive Purpose where
  | plain
  | push
  | pop
  | tapRead
  | walkRead
  | amend
  | newestRead
  deriving DecidableEq, Repr

/-- The port and the entry that issued a transaction (R113). -/
structure Origin where
  port : Port
  tag : Nat
  deriving DecidableEq, Repr

/-- A transaction of the memory queue (R113). `presented` says that the memory has accepted it. -/
structure Transaction where
  access : Access
  addr : Addr
  size : Size
  origin : Option Origin
  line : Option LineNo
  purpose : Purpose
  presented : Bool
  deriving DecidableEq, Repr

/-- The eight kinds of incident (R140). -/
inductive Kind where
  | underrun
  | overrun
  | shape
  | guard
  | timeout
  | abandoned
  | memfault
  | refused
  deriving DecidableEq, Repr

/-- The detail of an OVERRUN incident (R69). -/
inductive OverrunDetail where
  | dropped
  | replaced
  | errored
  deriving DecidableEq, Repr

/-- The two operations that park (R88); the detail of a TIMEOUT incident (R97). -/
inductive ParkedOp where
  | pop
  | push
  deriving DecidableEq, Repr

/-- The cause an ABANDONED incident carries (R99, R100). -/
inductive Cause where
  | flush
  | retire
  | hardCommit
  | disengage
  deriving DecidableEq, Repr

/-- The detail of an incident; its constructor is the incident's kind (R140). -/
inductive Detail where
  | underrun (reference fill : Nat)
  | overrun (detail : OverrunDetail)
  | shape (detail : ShapeDetail)
  | guard (detail : GuardDetail)
  | timeout (op : ParkedOp)
  | abandoned (cause : Cause)
  | memfault (purpose : Purpose)
  | refused (reason : ClashReason) (other : LineNo)
  deriving DecidableEq, Repr

/-- An incident as a block hands it to the incident unit (R140, R141). -/
structure Incident where
  line : Option LineNo
  port : Option Port
  addr : Option Addr
  detail : Detail
  deriving DecidableEq, Repr

/-- A record of the incident queue (R140). `occurrences` is the manual's repeat. -/
structure Record where
  sequence : BitVec 16
  incident : Incident
  occurrences : Nat
  deriving DecidableEq, Repr

/-- The incident unit's state: the incident queue, oldest record first, the overflow marker, the enables (bit `n` the
enable of kind code `n`), the sequence counter and the level of ALERT (chapter 8). -/
structure IncidentUnit where
  records : List Record
  overflow : Bool
  enables : BitVec 8
  counter : BitVec 16
  alertLow : Bool
  deriving DecidableEq, Repr

/-- The status codes of the management link (R152). -/
inductive LinkStatus where
  | ok
  | badframe
  | badline
  | busy
  | invalid
  | notlive
  | notarmed
  | badtrigger
  | empty
  deriving DecidableEq, Repr

/-- The held result: a status and 0 to 32 result bytes (R152). -/
structure Held where
  status : LinkStatus
  bytes : List Byte
  deriving DecidableEq, Repr

/-- A frame: the inbound bytes the part captured (at most the first 40), the number of whole bytes shifted, and what SDO
carried, one byte for each byte of the frame (R150). -/
structure Frame where
  captured : List Byte
  count : Nat
  sdo : List Byte
  deriving DecidableEq, Repr

/-- The management link's state: the held result (R152), and the frame last shifted. A command is a whole frame, from
the falling edge of CSN to the rising edge, so between commands no frame is in progress (log entry 4). -/
structure Link where
  held : Held
  frame : Frame
  deriving DecidableEq, Repr

/-- An incident handed by a block and not yet dealt with by the incident unit (R141). -/
structure Handed where
  source : Source
  incident : Incident
  deriving DecidableEq, Repr

/-- The AF416's state, block by block. `handed` holds the incidents on their way to the incident unit, oldest first.
`tickCount` is the part's tick count (R89). `porstnLow` and `sysrstnLow` are the levels of the two reset inputs.
`pending` is the queue of commands that wait, first in, first out. -/
structure State where
  portA : Intake
  portB : Intake
  engine : LineEngine
  commit : CommitUnit
  memQueue : List Transaction
  incidents : IncidentUnit
  handed : List Handed
  link : Link
  tickCount : BitVec 32
  porstnLow : Bool
  sysrstnLow : Bool
  pending : List Instr
  deriving DecidableEq, Repr

/-- Why the machine could stop with a fault: there is no such reason. The manual gives every command an effect in every
state, so no meaning raises a fault. -/
inductive Fault where
  deriving DecidableEq, Repr

/-- Why the machine refuses a command. -/
inductive Refusal where
  /-- Raised by `exec` alone, for a row that has no meaning yet; safe, since the machine stops. -/
  | notModelled (mnemonic : String)
  deriving DecidableEq, Repr

/-- 32 zero bytes (R9). -/
def zeroImage : Image := { bytes := Vector.replicate 32 0 }

/-- A line record after power-on reset (R25). -/
def Line.initial : Line :=
  { state := .idle, active := zeroImage, head := 0, tail := 0, fill := 0, walkA := 0, walkB := 0, suspect := false,
    generation := 0, lastOutcome := .noneYet }

/-- An intake after power-on reset (R89, R106). -/
def Intake.initial : Intake := { openList := [], deadline := none, nextTag := 0 }

/-- The line engine after power-on reset (R25, R27, R111, R112). -/
def LineEngine.initial : LineEngine :=
  { lines := Vector.replicate 16 Line.initial, mode := .transparent, lastChosen := .B, urgentA := false,
    urgentB := false }

/-- The commit unit after power-on reset (R137). -/
def CommitUnit.initial : CommitUnit :=
  { staged := Vector.replicate 16 zeroImage, pendingCommit := Vector.replicate 16 none, markCount := 0 }

/-- The incident unit after power-on reset (R149). -/
def IncidentUnit.initial : IncidentUnit :=
  { records := [], overflow := false, enables := 0xFF, counter := 0, alertLow := false }

/-- The management link after power-on reset (R153). -/
def Link.initial : Link :=
  { held := { status := .ok, bytes := [] }, frame := { captured := [], count := 0, sdo := [] } }

/-- The machine right after power-on reset, with both reset inputs high again (log entry 3). -/
def State.reset : State :=
  { portA := Intake.initial, portB := Intake.initial, engine := LineEngine.initial, commit := CommitUnit.initial,
    memQueue := [], incidents := IncidentUnit.initial, handed := [], link := Link.initial, tickCount := 0,
    porstnLow := false, sysrstnLow := false, pending := [] }

end Sys2Proof.Machine
end

