-- ==== Sys2Proof/Machine/Operands.lean ====
section
/-! DEFINITION. Operand forms: the fields of a descriptor image, spans and ranges of bytes, ring positions and
references, and the data of requests and answers. -/

namespace Sys2Proof.Machine

/-! ## Data -/

/-- The data's first `n` bytes, the rest zero: data of a size carries no byte beyond it (R104, R113). -/
def firstBytes (n : Nat) (d : Data) : Data := BitVec.ofNat 64 (d.toNat % 2 ^ (8 * n))

/-- A number in data bytes, least significant byte at the lowest address (R61, R62). -/
def numberData (n : Nat) : Data := BitVec.ofNat 64 n

/-- Data read as an unsigned number, least significant byte at the lowest address (R83). -/
def dataNumber (d : Data) : Nat := d.toNat

/-- The access with its write data cut to the request's size (R104). -/
def Access.cut (size : Size) : Access → Access
  | .read => .read
  | .write data => .write (firstBytes size.bytes data)

/-- The write data of an access, zero for a read. -/
def Access.data : Access → Data
  | .read => 0
  | .write data => data

/-- Whether an access is a write. -/
def Access.isWrite : Access → Bool
  | .read => false
  | .write _ => true

/-- The size whose number of bytes is `n`, for the element sizes 2, 4 and 8 (R3). -/
def Size.ofBytes (n : Nat) : Size :=
  if n = 8 then .eight else if n = 4 then .four else if n = 2 then .two else .one

/-! ## Bytes of images and results -/

/-- Byte `i` of an image as a number (R161). -/
def Image.byte (d : Image) (i : Nat) : Nat := ((d.bytes[i]?).getD 0).toNat

/-- The little-endian 16-bit field at offset `i` (R161). -/
def Image.half (d : Image) (i : Nat) : Nat := d.byte i + 2 ^ 8 * d.byte (i + 1)

/-- The little-endian 32-bit field at offset `i` (R161). -/
def Image.word (d : Image) (i : Nat) : Nat := d.half i + 2 ^ 16 * d.half (i + 2)

/-- The bytes of an image in the order of their offsets. -/
def Image.toList (d : Image) : List Byte := d.bytes.toList

/-- The image with the bytes of `data` written from `offset` on (R119). -/
def Image.write (d : Image) (offset : Nat) : List Byte → Image
  | [] => d
  | b :: more => Image.write { bytes := d.bytes.setIfInBounds offset b } (offset + 1) more

/-- The little-endian bytes of a number: `n` of them, least significant first (section 9.6). -/
def leBytes : (n : Nat) → Nat → List Byte
  | 0, _ => []
  | n + 1, v => BitVec.ofNat 8 v :: leBytes n (v / 256)

/-! ## The fields of a descriptor image (R161) -/

/-- The kind code: NONE 0, DELAY 1, QUEUE 2. -/
def Image.kind (d : Image) : Nat := d.byte 0

/-- The element size e. -/
def Image.elemSize (d : Image) : Nat := d.byte 1

/-- The spacing s. -/
def Image.spacing (d : Image) : Nat := d.byte 2

/-- The guard code: OPEN 0, READ 1, CLOSED 2. -/
def Image.guard (d : Image) : Nat := d.byte 3

/-- The under-run policy code: FILL 0, ERROR 1, STALL 2. -/
def Image.underrunPolicy (d : Image) : Nat := d.byte 4

/-- The overflow policy code: DROP 0, REPLACE 1, STALL 2, ERROR 3. -/
def Image.overflowPolicy (d : Image) : Nat := d.byte 5

/-- The feeder code: NONE 0, A 1, B 2. -/
def Image.feeder (d : Image) : Nat := d.byte 6

/-- The amend permit, 0 or 1. -/
def Image.amendPermit (d : Image) : Nat := d.byte 7

/-- The window base. -/
def Image.windowBase (d : Image) : Nat := d.word 8

/-- The ring base. -/
def Image.ringBase (d : Image) : Nat := d.word 12

/-- The ring length L. -/
def Image.ringLength (d : Image) : Nat := d.half 16

/-- The tap count T. -/
def Image.tapCount (d : Image) : Nat := d.half 18

/-- The low-water level W. -/
def Image.lowWater (d : Image) : Nat := d.half 20

/-- The stall limit, in microseconds. -/
def Image.stallLimit (d : Image) : Nat := d.half 22

/-- The fill value: image byte 24 at the lowest address of the answer data (R6). -/
def Image.fillValue (d : Image) : Data := BitVec.ofNat 64 (d.word 24 + 2 ^ 32 * d.word 28)

/-- The kind is NONE: the image asks for the line to be retired (R3). -/
def Image.isNone (d : Image) : Bool := d.kind == 0

/-- The kind is QUEUE (R3). -/
def Image.isQueue (d : Image) : Bool := d.kind == 2

/-! ## Ranges of bytes -/

/-- A range of bytes `[low, high)` (00_scope.md, Conventions). -/
structure Span where
  low : Nat
  high : Nat
  deriving DecidableEq, Repr

/-- Two ranges intersect when they have at least one byte in common (00_scope.md, Conventions). -/
def Span.meets (a b : Span) : Bool := decide (max a.low b.low < min a.high b.high)

/-- Every byte of `a` lies in `b`. -/
def Span.inside (a b : Span) : Bool := decide (b.low ≤ a.low ∧ a.high ≤ b.high)

/-- The window span (R7). -/
def Image.windowSpan (d : Image) : Span :=
  { low := d.windowBase, high := d.windowBase + (4 + d.tapCount) * d.elemSize }

/-- The ring span (R7). -/
def Image.ringSpan (d : Image) : Span :=
  { low := d.ringBase, high := d.ringBase + d.ringLength * d.elemSize }

/-- The byte range of a request; a range that would pass the top of the space is compared up to 0xFFFFFFFF (R29). -/
def requestSpan (addr : Addr) (size : Size) : Span :=
  { low := addr.toNat, high := min (addr.toNat + size.bytes) Config.topOfSpace }

/-! ## Ring positions and references -/

/-- `(x) mod L`, from 0 to L − 1 also where x is negative (00_scope.md, Conventions). -/
def modL (x : Int) (L : Nat) : Nat := (x % (L : Int)).toNat

/-- The line is LIVE (R2). -/
def Line.isLive (l : Line) : Bool := l.state == .live

/-- The ring length of the active descriptor. -/
def Line.L (l : Line) : Nat := l.active.ringLength

/-- The distance k·s of reference k (R15). -/
def Line.distance (l : Line) (k : Nat) : Nat := k * l.active.spacing

/-- A reference is valid when its distance is below fill; otherwise it is an under-run (R16). -/
def Line.valid (l : Line) (k : Nat) : Bool := decide (l.distance k < l.fill)

/-- The ring position of reference k, counted from the line's reference end (R15). -/
def Line.referencePosition (l : Line) (k : Nat) : Nat :=
  if l.active.isQueue then modL ((l.tail : Int) + (l.distance k : Int)) l.L
  else modL ((l.head : Int) - 1 - (l.distance k : Int)) l.L

/-- The memory address of ring position p (R17). -/
def Line.ringAddr (l : Line) (p : Nat) : Addr :=
  BitVec.ofNat 32 (l.active.ringBase + p * l.active.elemSize)

/-- The size of the transactions of a line's operations: e bytes (R17). -/
def Line.elemSize (l : Line) : Size := Size.ofBytes l.active.elemSize

/-- A port's walk cursor on a line (R18). -/
def Line.walk (l : Line) : Port → Nat
  | .A => l.walkA
  | .B => l.walkB

/-! ## Cursor movements -/

/-- Both walk cursors set to 0 (R19). -/
def Line.resetWalks (l : Line) : Line := { l with walkA := 0, walkB := 0 }

/-- A walk access advances its port's walk cursor by one, modulo T (R18). -/
def Line.advanceWalk (l : Line) : Port → Line
  | .A => { l with walkA := (l.walkA + 1) % l.active.tapCount }
  | .B => { l with walkB := (l.walkB + 1) % l.active.tapCount }

/-- The next head advance is a wrap: head is L − 1 (R12). -/
def Line.wrapsNext (l : Line) : Bool := l.head + 1 == l.L

/-- The head advance (R12). -/
def Line.advanceHead (l : Line) : Line := { l with head := if l.wrapsNext then 0 else l.head + 1 }

/-- Tail set to (head − fill) mod L, with head and fill as they stand (R13). -/
def Line.deriveTail (l : Line) : Line := { l with tail := modL ((l.head : Int) - (l.fill : Int)) l.L }

/-- The DELAY push movement, with the walk cursors it resets (R13, R19). -/
def Line.delayPush (l : Line) : Line :=
  (Line.deriveTail { l.advanceHead with fill := min (l.fill + 1) l.L }).resetWalks

/-- The enqueue movement (R14). -/
def Line.enqueue (l : Line) : Line := { l.advanceHead with fill := l.fill + 1 }

/-- The dequeue movement, with the walk cursors it resets (R14, R19). -/
def Line.dequeue (l : Line) : Line :=
  Line.resetWalks { l with tail := (l.tail + 1) % l.L, fill := l.fill - 1 }

/-- The displace movement, with the walk cursors it resets (R14, R19). -/
def Line.displace (l : Line) : Line :=
  Line.resetWalks { l.advanceHead with tail := (l.tail + 1) % l.L, fill := l.L }

/-- The number of elements a discard of n removes: min(n, fill) (R14). -/
def Line.discarded (l : Line) (n : Nat) : Nat := min n l.fill

/-- The discard movement; one that removes nothing changes nothing (R14, R19). -/
def Line.discard (l : Line) (n : Nat) : Line :=
  if l.discarded n = 0 then l
  else Line.resetWalks { l with tail := (l.tail + l.discarded n) % l.L, fill := l.fill - l.discarded n }

/-- The line emptied: head, tail, fill and both walk cursors 0, suspect clear (R23, R26). -/
def Line.emptied (l : Line) : Line :=
  { l with head := 0, tail := 0, fill := 0, walkA := 0, walkB := 0, suspect := false }

/-- The line made IDLE: the IDLE values of R1, with generation and last commit outcome kept (R2). -/
def Line.retired (l : Line) : Line := { l.emptied with state := .idle, active := zeroImage }

end Sys2Proof.Machine
end

