-- ==== Sys2Proof/Machine/Flags.lean ====
section
/-! DEFINITION. The computed flags of the part: urgency (R85, R112), ALERT (R147), and the reset condition. -/

namespace Sys2Proof.Machine

/-- The sixteen line numbers in ascending order. -/
def allLines : List LineNo := [0, 1, 2, 3, 4, 5, 6, 7, 8, 9, 10, 11, 12, 13, 14, 15]

/-- The feeder code that names a port (R6). -/
def Port.feederCode : Port → Nat
  | .A => 1
  | .B => 2

/-- A line contributes urgency to a port when it is LIVE, a QUEUE, fed by that port, with fill at most W (R85). -/
def Line.urges (l : Line) (p : Port) : Bool :=
  l.isLive && l.active.isQueue && (l.active.feeder == Port.feederCode p)
    && decide (l.fill ≤ l.active.lowWater)

/-- A port is urgent while at least one line contributes to it (R85). -/
def urgencyOf (lines : Vector Line 16) (p : Port) : Bool := allLines.any fun i => lines[i].urges p

/-- ALERT is low while the queue holds a record or the overflow marker is set (R147). -/
def alertOf (u : IncidentUnit) : Bool := !u.records.isEmpty || u.overflow

/-- A reset input is held low: no request is accepted, no take is made and no edge is a mark (R106, R126). -/
def State.inReset (s : State) : Bool := s.porstnLow || s.sysrstnLow

end Sys2Proof.Machine
end

