-- ==== Sys2Proof/Machine/Ops.lean ====
section
/-! DEFINITION. The named operations over the blocks' state: line records, open lists, deadlines, the memory queue,
incidents handed, and the release and ending of parked entries. -/

namespace Sys2Proof.Machine

/-! ## The line table and the commit unit -/

/-- The record of line `i`. -/
def State.line (s : State) (i : LineNo) : Line := s.engine.lines[i]

/-- The state with the record of line `i` replaced. -/
def State.setLine (s : State) (i : LineNo) (l : Line) : State :=
  { s with engine := { s.engine with lines := s.engine.lines.set i l } }

/-- The staged image of line `i` (R118). -/
def State.stagedOf (s : State) (i : LineNo) : Image := s.commit.staged[i]

/-- The state with the staged image of line `i` replaced. -/
def State.setStaged (s : State) (i : LineNo) (d : Image) : State :=
  { s with commit := { s.commit with staged := s.commit.staged.set i d } }

/-- The pending commit of line `i` (R118). -/
def State.pendingOf (s : State) (i : LineNo) : Option Trigger := s.commit.pendingCommit[i]

/-- The state with the pending commit of line `i` replaced. -/
def State.setPending (s : State) (i : LineNo) (t : Option Trigger) : State :=
  { s with commit := { s.commit with pendingCommit := s.commit.pendingCommit.set i t } }

/-- Both ports' urgency recomputed from the line table (R85, R112). -/
def recomputeUrgency (s : State) : State :=
  { s with engine := { s.engine with urgentA := urgencyOf s.engine.lines .A, urgentB := urgencyOf s.engine.lines .B } }

/-- A port's urgency as the line engine holds it (R112). -/
def State.urgent (s : State) : Port → Bool
  | .A => s.engine.urgentA
  | .B => s.engine.urgentB

/-! ## Intakes -/

/-- The other port. -/
def Port.other : Port → Port
  | .A => .B
  | .B => .A

/-- A port's intake. -/
def State.intake (s : State) : Port → Intake
  | .A => s.portA
  | .B => s.portB

/-- The state with a port's intake replaced. -/
def State.setIntake (s : State) (p : Port) (it : Intake) : State :=
  match p with
  | .A => { s with portA := it }
  | .B => { s with portB := it }

/-- A port's park deadline set or made absent (R89). -/
def setDeadline (p : Port) (d : Option (BitVec 32)) (s : State) : State :=
  s.setIntake p { s.intake p with deadline := d }

/-- The open list with `f` applied to the entries tagged `tag`. -/
def updateEntries (tag : Nat) (f : Entry → Entry) (entries : List Entry) : List Entry :=
  entries.map fun e => if e.tag = tag then f e else e

/-- One entry of a port's open list changed by `f`; the list is never reordered (section 6.1). -/
def updateEntry (p : Port) (tag : Nat) (f : Entry → Entry) (s : State) : State :=
  s.setIntake p { s.intake p with openList := updateEntries tag f (s.intake p).openList }

/-- The answer to an access: read data of the request's size, zero in every byte with ERROR; a write's answer carries
a status alone (R105). -/
def formAnswer (access : Access) (size : Size) (status : Status) (data : Data) : Answer :=
  { status := status,
    readData :=
      match access, status with
      | .read, .okay => some (firstBytes size.bytes data)
      | .read, .error => some 0
      | .write _, _ => none }

/-- An entry made READY with its answer (R104). -/
def Entry.answered (status : Status) (data : Data) (e : Entry) : Entry :=
  { e with state := .ready, answer := some (formAnswer e.access e.size status data) }

/-- An entry answered at once, in its take. -/
def answerEntry (p : Port) (e : Entry) (status : Status) (data : Data) (s : State) : State :=
  updateEntry p e.tag (Entry.answered status data) s

/-! ## The memory queue -/

/-- A transaction appended at the back of the memory queue, and its entry made ISSUED (R109, R113). -/
def issue (p : Port) (e : Entry) (t : Transaction) (s : State) : State :=
  updateEntry p e.tag (fun x => { x with state := .issued }) { s with memQueue := s.memQueue ++ [t] }

/-- The transaction that forwards a plain entry unchanged (R40). -/
def plainTransaction (p : Port) (e : Entry) : Transaction :=
  { access := e.access, addr := e.addr, size := e.size, origin := some { port := p, tag := e.tag }, line := none,
    purpose := .plain, presented := false }

/-- The transaction of an operation of line `i`, whose record at the start of the operation is `l`, at ring position
`pos` (R41). -/
def lineTransaction (p : Port) (e : Entry) (i : LineNo) (l : Line) (pos : Nat) (purpose : Purpose) : Transaction :=
  { access := e.access, addr := l.ringAddr pos, size := l.elemSize,
    origin := some { port := p, tag := e.tag }, line := some i, purpose := purpose, presented := false }

/-! ## Incidents -/

/-- An incident handed to the incident unit by the event of `source` (R141). -/
def hand (source : Source) (incident : Incident) (s : State) : State :=
  { s with handed := s.handed ++ [{ source := source, incident := incident }] }

/-- The incident of an entry of port `p` on line `i` (R140). -/
def entryIncident (p : Port) (i : LineNo) (e : Entry) (detail : Detail) : Incident :=
  { line := some i, port := some p, addr := some e.addr, detail := detail }

/-! ## Parked and released entries -/

/-- The line and the operation of an entry that is a push or a pop, from its class (R88). -/
def Entry.parkedOp (e : Entry) : Option (LineNo × ParkedOp) :=
  match e.cls with
  | some (.operation i .push) => some (i, .push)
  | some (.operation i .pop) => some (i, .pop)
  | _ => none

/-- The entry is PARKED or RELEASED. -/
def Entry.isHeld (e : Entry) : Bool := e.state == .parked || e.state == .released

/-- The entry is PARKED or RELEASED on line `i`. -/
def Entry.heldOn (i : LineNo) (e : Entry) : Bool := Entry.isHeld e && ((Entry.parkedOp e).map Prod.fst == some i)

/-- The taken entry parks: it keeps its class, and its port's deadline becomes `due` (R88, R89). -/
def park (p : Port) (e : Entry) (due : Option (BitVec 32)) (s : State) : State :=
  setDeadline p due (updateEntry p e.tag (fun x => { x with state := .parked }) s)

/-- An entry PARKED on the operation `op` of line `i` becomes RELEASED; any other stays (R91). -/
def Entry.releasedFrom (i : LineNo) (op : ParkedOp) (e : Entry) : Entry :=
  if e.state = .parked ∧ Entry.parkedOp e = some (i, op) then { e with state := .released } else e

/-- One port's entries PARKED on the operation `op` of line `i` released (R91). -/
def releasePort (i : LineNo) (op : ParkedOp) (p : Port) (s : State) : State :=
  s.setIntake p { s.intake p with openList := (s.intake p).openList.map (Entry.releasedFrom i op) }

/-- Every entry of either port PARKED on the operation `op` of line `i` released (R91). -/
def releaseParked (i : LineNo) (op : ParkedOp) (s : State) : State := releasePort i op .B (releasePort i op .A s)

/-- The PARKED and RELEASED entries of an intake that `which` picks. -/
def heldEntries (which : Entry → Bool) (it : Intake) : List Entry :=
  it.openList.filter fun e => Entry.isHeld e && which e

/-- The held entries that `which` picks ended: READY with ERROR, and the port's deadline absent (R97, R99, R101). -/
def endHeld (which : Entry → Bool) (it : Intake) : Intake :=
  if (heldEntries which it).isEmpty then it
  else
    { it with
      openList := it.openList.map fun e => if Entry.isHeld e && which e then Entry.answered .error 0 e else e,
      deadline := none }

/-- The ABANDONED incident of an ended entry (R99). -/
def abandonedIncident (p : Port) (cause : Cause) (e : Entry) : Incident :=
  { line := (Entry.parkedOp e).map Prod.fst, port := some p, addr := some e.addr, detail := .abandoned cause }

/-- One port's held entries that `which` picks abandoned, an ABANDONED incident handed for each (R99). -/
def abandonPort (source : Source) (cause : Cause) (which : Entry → Bool) (p : Port) (s : State) : State :=
  let ended := (heldEntries which (s.intake p)).map fun e =>
    { source := source, incident := abandonedIncident p cause e : Handed }
  let s := s.setIntake p (endHeld which (s.intake p))
  { s with handed := s.handed ++ ended }

/-- The held entries of both ports that `which` picks abandoned, Port A's incident first (R99, R141). -/
def abandon (source : Source) (cause : Cause) (which : Entry → Bool) (s : State) : State :=
  abandonPort source cause which .B (abandonPort source cause which .A s)

end Sys2Proof.Machine
end

