-- ==== Sys2Proof/Machine/Decoding.lean ====
section
/-! DEFINITION. Window decoding and guarding (chapter 2): which class the take gives an entry. -/

namespace Sys2Proof.Machine

/-- What decoding finds: the entry's class and, for a refusal, the line charged (R38, R39). -/
inductive Decoded where
  | plain
  | operation (line : LineNo) (op : LineOp)
  | refused (how : RefusedAs) (charged : LineNo)
  deriving DecidableEq, Repr

/-- The class a decoding records in the entry (R39). -/
def Decoded.toClass : Decoded → EntryClass
  | .plain => .plain
  | .operation i op => .operation i op
  | .refused how _ => .refused how

/-- The operation at window index `index` of a line, or the detail of its refusal (R32 to R35). -/
def decodeIndex (d : Image) (write : Bool) (index : Nat) : Except ShapeDetail LineOp :=
  match index, write with
  | 0, false => .ok (if d.isQueue then .pop else .newestRead)
  | 0, true => .ok .push
  | 1, false => .ok (if d.isQueue then .walkPeek else .walkRead)
  | 1, true => if d.amendPermit = 1 then .ok .walkAmend else .error .amendDenied
  | 2, false => .ok .levelRead
  | 2, true => if d.isQueue then .ok .discard else .error .readOnlySlot
  | 3, false => .ok .generationRead
  | 3, true => .error .readOnlySlot
  | k + 4, false => .ok (if d.isQueue then .tapPeek k else .tapRead k)
  | k + 4, true => if d.amendPermit = 1 then .ok (.tapAmend k) else .error .amendDenied

/-- A request wholly inside the window of a line with descriptor `d`: alignment, then size, then the index
(R31, section 2.3). -/
def decodeInWindow (d : Image) (access : Access) (addr : Addr) (size : Size) : Except ShapeDetail LineOp :=
  let o := addr.toNat - d.windowBase
  if o % d.elemSize ≠ 0 then .error .misaligned
  else if size.bytes ≠ d.elemSize then .error .wrongSize
  else decodeIndex d (Access.isWrite access) (o / d.elemSize)

/-- The LIVE lines whose windows a byte range meets, in ascending order (R29). -/
def windowsMet (s : State) (r : Span) : List LineNo :=
  allLines.filter fun i => (s.line i).isLive && Span.meets r (s.line i).active.windowSpan

/-- A guard forbids a plain access: READ forbids writes, CLOSED forbids both (R4, R36). -/
def guardForbids (d : Image) (write : Bool) : Bool :=
  if d.guard = 0 then false else if d.guard = 1 then write else true

/-- The LIVE lines whose rings a byte range meets and whose guards forbid the access, in ascending order (R36). -/
def guardsForbidding (s : State) (r : Span) (write : Bool) : List LineNo :=
  allLines.filter fun i =>
    (s.line i).isLive && Span.meets r (s.line i).active.ringSpan && guardForbids (s.line i).active write

/-- The guard detail of a plain access (R37). -/
def guardDetail (access : Access) : GuardDetail := if Access.isWrite access then .write else .read

/-- Decoding in ENGAGED mode: straddle, window access or plain access under the guards (R29 to R37). -/
def decodeEngaged (s : State) (access : Access) (addr : Addr) (size : Size) : Decoded :=
  let r := requestSpan addr size
  match windowsMet s r with
  | [] =>
    match guardsForbidding s r (Access.isWrite access) with
    | [] => .plain
    | i :: _ => .refused (.guard (guardDetail access)) i
  | lowest :: more =>
    match (lowest :: more).find? fun i => Span.inside r (s.line i).active.windowSpan with
    | none => .refused (.shape .straddle) lowest
    | some i =>
      match decodeInWindow (s.line i).active access addr size with
      | .ok op => .operation i op
      | .error detail => .refused (.shape detail) i

/-- Decoding of a request at its take: PLAIN in TRANSPARENT mode (R28), by R29 in ENGAGED mode. -/
def decodeRequest (s : State) (access : Access) (addr : Addr) (size : Size) : Decoded :=
  match s.engine.mode with
  | .transparent => .plain
  | .engaged => decodeEngaged s access addr size

end Sys2Proof.Machine
end

