-- ==== Sys2Proof/Machine/Commits.lean ====
section
/-! DEFINITION. The commit unit (chapter 7): the checks of ARM, the clash check, and the refusal and application of a
commit at its trigger. -/

namespace Sys2Proof.Machine

/-! ## The checks of ARM -/

/-- The fields of a staged image with the offset of each and whether it lies in its range, in ascending order of the
offsets (R121); for a kind other than DELAY and QUEUE only the kind byte is examined. -/
def fieldChecks (d : Image) : List (Nat × Bool) :=
  let stall := d.underrunPolicy = 2 ∨ d.overflowPolicy = 2
  if d.kind = 1 ∨ d.kind = 2 then
    [(1, decide (d.elemSize = 2 ∨ d.elemSize = 4 ∨ d.elemSize = 8)),
     (2, decide (1 ≤ d.spacing ∧ d.spacing ≤ 16)),
     (3, decide (d.guard ≤ 2)),
     (4, decide (d.underrunPolicy ≤ if d.isQueue then 2 else 1)),
     (5, decide (d.overflowPolicy ≤ 3)),
     (6, decide (d.feeder ≤ 2)),
     (7, decide (d.amendPermit ≤ 1)),
     (8, decide (d.windowBase % 64 = 0)),
     (12, decide (d.ringBase % 64 = 0)),
     (16, decide ((if d.isQueue then 1 else 2) ≤ d.ringLength ∧ d.ringLength ≤ 4096)),
     (18, decide (1 ≤ d.tapCount ∧ d.tapCount ≤ 4096)),
     (20, decide (d.lowWater ≤ d.ringLength)),
     (22, decide (stall → 1 ≤ d.stallLimit))]
  else [(0, d.isNone)]

/-- The offset of the first field outside its range (R121). -/
def firstBadField (d : Image) : Option Nat := ((fieldChecks d).find? fun c => !c.2).map Prod.fst

/-- The tap geometry and the spans fit: check 5 of ARM (R122). -/
def geometryFits (d : Image) : Bool :=
  decide ((d.tapCount - 1) * d.spacing ≤ d.ringLength - 1
    ∧ (d.windowSpan).high ≤ Config.topOfSpace ∧ (d.ringSpan).high ≤ Config.topOfSpace)

/-- The line's own window span and ring span are disjoint: check 6 of ARM (R122). -/
def selfDisjoint (d : Image) : Bool := !Span.meets d.windowSpan d.ringSpan

/-- Why ARM's image checks refuse an image (R120, steps 4 to 6). -/
inductive ImageFault where
  | field (offset : Nat)
  | geometry
  | selfOverlap
  deriving DecidableEq, Repr

/-- The image checks of ARM, steps 4 to 6 of R120; steps 5 and 6 do not apply to kind NONE. -/
def imageFault (d : Image) : Option ImageFault :=
  match firstBadField d with
  | some offset => some (.field offset)
  | none =>
    if d.isNone then none
    else if !geometryFits d then some .geometry
    else if !selfDisjoint d then some .selfOverlap
    else none

/-! ## The clash check -/

/-- A span meets the window span or the ring span of LIVE line `j` (R130). -/
def meetsLine (s : State) (r : Span) (j : LineNo) : Bool :=
  (s.line j).isLive
    && (Span.meets r (s.line j).active.windowSpan || Span.meets r (s.line j).active.ringSpan)

/-- The lowest-numbered LIVE line other than `i` that a span meets (R130). -/
def lowestMet (s : State) (i : LineNo) (r : Span) : Option LineNo :=
  allLines.find? fun j => decide (j ≠ i) && meetsLine s r j

/-- The clash check of the image staged for line `i`: the reason and the other line where it fails (R130). -/
def clashCheck (s : State) (i : LineNo) (d : Image) : Option (ClashReason × LineNo) :=
  if d.isNone then none
  else
    match lowestMet s i d.windowSpan with
    | some j => some (.windowClash, j)
    | none =>
      match lowestMet s i d.ringSpan with
      | some j => some (.ringClash, j)
      | none => none

/-! ## Refusal and application -/

/-- The kinds of an applied commit (R132). -/
inductive CommitKind where
  | soft
  | hard
  | retiring
  deriving DecidableEq, Repr

/-- The kind of a commit, from the line record and the staged image (R132). -/
def commitKind (l : Line) (d : Image) : CommitKind :=
  if d.isNone then .retiring
  else if l.isLive && d.kind == l.active.kind && d.elemSize == l.active.elemSize
      && d.ringBase == l.active.ringBase && d.ringLength == l.active.ringLength then .soft
  else .hard

/-- What every applied commit does to the line record first: walk cursors 0, generation advanced, outcome APPLIED
(R133). -/
def Line.committed (l : Line) (outcome : CommitOutcome) : Line :=
  { l.resetWalks with generation := l.generation + 1, lastOutcome := outcome }

/-- The entries parked on a line that no longer stall under descriptor `d` released (R92, R134). -/
def releaseByPolicy (i : LineNo) (d : Image) (s : State) : State :=
  let s := if d.underrunPolicy = 2 then s else releaseParked i .pop s
  if d.overflowPolicy = 2 then s else releaseParked i .push s

/-- A soft commit (R134). -/
def applySoft (i : LineNo) (s : State) : State :=
  releaseByPolicy i (s.stagedOf i)
    (s.setLine i { (s.line i).committed .appliedSoft with active := s.stagedOf i })

/-- A hard commit (R135). -/
def applyHard (source : Source) (i : LineNo) (s : State) : State :=
  abandon source .hardCommit (Entry.heldOn i)
    (s.setLine i
      { ((s.line i).committed .appliedHard).emptied with active := s.stagedOf i, state := .live })

/-- A retiring commit (R136). -/
def applyRetiring (source : Source) (i : LineNo) (s : State) : State :=
  abandon source .retire (Entry.heldOn i) (s.setLine i (((s.line i).committed .appliedHard).retired))

/-- The application of a commit: the pending commit cleared, the steps of its kind, urgency recomputed
(R132 to R136). -/
def applyCommit (source : Source) (i : LineNo) (s : State) : State :=
  let s := s.setPending i none
  recomputeUrgency
    (match commitKind (s.line i) (s.stagedOf i) with
    | .soft => applySoft i s
    | .hard => applyHard source i s
    | .retiring => applyRetiring source i s)

/-- The last commit outcome of line `i` set. -/
def setOutcome (i : LineNo) (outcome : CommitOutcome) (s : State) : State :=
  s.setLine i { s.line i with lastOutcome := outcome }

/-- The REFUSED incident of line `i` (R131). -/
def refusedIncident (i : LineNo) (reason : ClashReason) (other : LineNo) : Incident :=
  { line := some i, port := none, addr := none, detail := .refused reason other }

/-- A pending commit that the clash check refuses at its trigger (R131). -/
def refuseCommit (source : Source) (i : LineNo) (reason : ClashReason) (other : LineNo) (s : State) : State :=
  hand source (refusedIncident i reason other) (setOutcome i (.refused reason other) (s.setPending i none))

/-- A pending commit whose trigger has come: refused or applied (R127, R129). -/
def dueCommit (source : Source) (i : LineNo) (s : State) : State :=
  match clashCheck s i (s.stagedOf i) with
  | some (reason, other) => refuseCommit source i reason other s
  | none => applyCommit source i s

/-- The step of line `i` at a mark: only a commit pending with trigger MARK is dealt with (R127). -/
def markLine (s : State) (i : LineNo) : State :=
  if s.pendingOf i = some .mark then dueCommit .commitUnit i s else s

/-- One mark: the mark count advances and the MARK-pending commits are dealt with in ascending line order
(R126, R127). -/
def markEvent (s : State) : State :=
  allLines.foldl markLine { s with commit := { s.commit with markCount := s.commit.markCount + 1 } }

/-- A wrap reported to the commit unit: only a commit pending with trigger WRAP is dealt with (R129). -/
def wrapReport (i : LineNo) (s : State) : State :=
  if s.pendingOf i = some .wrap then dueCommit .lineEngine i s else s

/-- The wrap report that ends a take, made if its push wrapped (R109, R129). -/
def reportIfWrapped (i : LineNo) (wrapped : Bool) (s : State) : State := if wrapped then wrapReport i s else s

/-- A line's pending commit cancelled, where it has one: outcome CANCELLED (R125, R138, R139). -/
def cancelPending (i : LineNo) (s : State) : State :=
  if (s.pendingOf i).isSome then setOutcome i .cancelled (s.setPending i none) else s

end Sys2Proof.Machine
end

