-- ==== Sys2Proof/Machine/References.lean ====
section
/-! DEFINITION. The operations DELAY and QUEUE lines share: accesses to a reference, valid or under-running, and the
LEVEL and GEN reads (chapters 3 and 4). Each is given the taken entry `e` of port `p`, its line `i` and the state. -/

namespace Sys2Proof.Machine

/-- An under-run answered by the line's policy: ERROR under ERROR, else OKAY with the fill value (R49, R68, R77).
The data of an amend is discarded. -/
def answerUnderrun (p : Port) (e : Entry) (i : LineNo) (s : State) : State :=
  let d := (s.line i).active
  if d.underrunPolicy = 1 then answerEntry p e .error 0 s else answerEntry p e .okay d.fillValue s

/-- A reference that under-runs: no transaction, answered by the policy, UNDERRUN handed with the reference and the
fill at the take (R49, R68). -/
def underrun (p : Port) (e : Entry) (i : LineNo) (k : Nat) (s : State) : State :=
  hand .lineEngine (entryIncident p i e (.underrun k (s.line i).fill)) (answerUnderrun p e i s)

/-- An access to reference k: its transaction where the reference is valid, else an under-run (R54, R55, R57, R79,
R81). -/
def accessReference (p : Port) (e : Entry) (i : LineNo) (k : Nat) (purpose : Purpose) (s : State) : State :=
  let l := s.line i
  if l.valid k then issue p e (lineTransaction p e i l (l.referencePosition k) purpose) s
  else underrun p e i k s

/-- A walk access: the reference is the port's walk cursor, which advances in the same take whatever becomes of the
access (R18, R58, R60, R80, R81). -/
def accessWalk (p : Port) (e : Entry) (i : LineNo) (purpose : Purpose) (s : State) : State :=
  let l := s.line i
  (accessReference p e i (l.walk p) purpose s).setLine i (l.advanceWalk p)

/-- A level read: the fill at the take (R61, R82). -/
def levelRead (p : Port) (e : Entry) (i : LineNo) (s : State) : State :=
  answerEntry p e .okay (numberData (s.line i).fill) s

/-- The value of the GEN slot: the generation, plus 256 while the line has a pending commit (R62). -/
def genValue (s : State) (i : LineNo) : Nat :=
  (s.line i).generation.toNat + if (s.pendingOf i).isSome then 256 else 0

/-- A generation read (R62, R84). -/
def generationRead (p : Port) (e : Entry) (i : LineNo) (s : State) : State :=
  answerEntry p e .okay (numberData (genValue s i)) s

end Sys2Proof.Machine
end

