-- ==== Sys2Proof/Machine/DelayLines.lean ====
section
/-! DEFINITION. The push of a DELAY line (R50 to R52). -/

namespace Sys2Proof.Machine

/-- A push to a DELAY line: the element written at head, the DELAY push movement, and the wrap reported last (R50). -/
def delayPush (p : Port) (e : Entry) (i : LineNo) (s : State) : State :=
  let l := s.line i
  reportIfWrapped i l.wrapsNext
    (issue p e (lineTransaction p e i l l.head .push) (s.setLine i l.delayPush))

end Sys2Proof.Machine
end

