-- ==== Sys2Proof/Machine/QueueLines.lean ====
section
/-! DEFINITION. The push, the pop and the discard of a QUEUE line (R69 to R77, R83). `due` is the deadline the port
takes if the entry parks. -/

namespace Sys2Proof.Machine

/-- A push that enqueues (R70). -/
def enqueue (p : Port) (e : Entry) (i : LineNo) (s : State) : State :=
  let l := s.line i
  reportIfWrapped i l.wrapsNext
    (issue p e (lineTransaction p e i l l.head .push)
      (recomputeUrgency (releaseParked i .pop (s.setLine i l.enqueue))))

/-- A push that displaces the oldest element, with its OVERRUN incident (R73). -/
def displace (p : Port) (e : Entry) (i : LineNo) (s : State) : State :=
  let l := s.line i
  reportIfWrapped i l.wrapsNext
    (hand .lineEngine (entryIncident p i e (.overrun .replaced))
      (issue p e (lineTransaction p e i l l.head .push) (releaseParked i .pop (s.setLine i l.displace))))

/-- A push to a full queue, decided by the overflow policy (R69, R71 to R74). -/
def overrun (due : Option (BitVec 32)) (p : Port) (e : Entry) (i : LineNo) (s : State) : State :=
  match (s.line i).active.overflowPolicy with
  | 0 => hand .lineEngine (entryIncident p i e (.overrun .dropped)) (answerEntry p e .okay 0 s)
  | 1 => displace p e i s
  | 2 => park p e due s
  | _ => hand .lineEngine (entryIncident p i e (.overrun .errored)) (answerEntry p e .error 0 s)

/-- A push to a QUEUE line, decided by fill at its take (R69). -/
def queuePush (due : Option (BitVec 32)) (p : Port) (e : Entry) (i : LineNo) (s : State) : State :=
  if (s.line i).fill < (s.line i).L then enqueue p e i s else overrun due p e i s

/-- A pop that dequeues the oldest element (R76). -/
def dequeue (p : Port) (e : Entry) (i : LineNo) (s : State) : State :=
  let l := s.line i
  issue p e (lineTransaction p e i l l.tail .pop)
    (recomputeUrgency (releaseParked i .push (s.setLine i l.dequeue)))

/-- A pop, decided by fill and, for an empty queue, by the under-run policy (R76, R77). -/
def queuePop (due : Option (BitVec 32)) (p : Port) (e : Entry) (i : LineNo) (s : State) : State :=
  if 0 < (s.line i).fill then dequeue p e i s
  else if (s.line i).active.underrunPolicy = 2 then park p e due s
  else underrun p e i 0 s

/-- A discard of n, the number written to the LEVEL slot (R83). -/
def queueDiscard (p : Port) (e : Entry) (i : LineNo) (s : State) : State :=
  let l := s.line i
  let n := dataNumber (Access.data e.access)
  answerEntry p e .okay 0
    (if l.discarded n = 0 then s
    else recomputeUrgency (releaseParked i .push (s.setLine i (l.discard n))))

end Sys2Proof.Machine
end

