-- ==== Sys2Proof/Machine/Engine.lean ====
section
/-! DEFINITION. The line engine (chapter 6): offers, the arbiter, and the take. -/

namespace Sys2Proof.Machine

/-- The entry a port offers: nothing while an entry is PARKED, else its RELEASED entry, else its earliest WAITING
entry (R107). -/
def Intake.offer (it : Intake) : Option Entry :=
  if it.openList.any fun e => e.state == .parked then none
  else
    match it.openList.find? fun e => e.state == .released with
    | some e => some e
    | none => it.openList.find? fun e => e.state == .waiting

/-- The arbiter's choice when both ports offer (R110). -/
def arbitrate (g : LineEngine) : Port :=
  if g.urgentA && !g.urgentB then .A else if g.urgentB && !g.urgentA then .B else Port.other g.lastChosen

/-- The port and the entry of the next take (R108, R110). -/
def nextTake (s : State) : Option (Port × Entry) :=
  match s.portA.offer, s.portB.offer with
  | none, none => none
  | some a, none => some (.A, a)
  | none, some b => some (.B, b)
  | some a, some b =>
    match arbitrate s.engine with
    | .A => some (.A, a)
    | .B => some (.B, b)

/-- An operation of line `i` carried out for the taken entry (chapters 3 and 4). -/
def performOp (due : Option (BitVec 32)) (p : Port) (e : Entry) (i : LineNo) (op : LineOp) (s : State) : State :=
  match op with
  | .push => if (s.line i).active.isQueue then queuePush due p e i s else delayPush p e i s
  | .pop => queuePop due p e i s
  | .newestRead => accessReference p e i 0 .newestRead s
  | .walkRead => accessWalk p e i .walkRead s
  | .walkPeek => accessWalk p e i .walkRead s
  | .walkAmend => accessWalk p e i .amend s
  | .levelRead => levelRead p e i s
  | .discard => queueDiscard p e i s
  | .generationRead => generationRead p e i s
  | .tapRead k => accessReference p e i k .tapRead s
  | .tapPeek k => accessReference p e i k .tapRead s
  | .tapAmend k => accessReference p e i k .amend s

/-- The incident of a refusal: kind SHAPE or GUARD, the line charged, the port, the address and the detail (R38). -/
def refusalIncident (p : Port) (e : Entry) (how : RefusedAs) (charged : LineNo) : Incident :=
  match how with
  | .shape detail => entryIncident p charged e (.shape detail)
  | .guard detail => entryIncident p charged e (.guard detail)

/-- What the take does once the entry is decoded: forwards it, carries out its operation or refuses it
(R38, R40, R47, R66). -/
def performDecoded (due : Option (BitVec 32)) (p : Port) (e : Entry) (d : Decoded) (s : State) : State :=
  match d with
  | .plain => issue p e (plainTransaction p e) s
  | .operation i op => performOp due p e i op s
  | .refused how charged => hand .lineEngine (refusalIncident p e how charged) (answerEntry p e .error 0 s)

/-- The decoding of a taken entry: a RELEASED push or pop keeps its class, any other entry is decoded (R39). -/
def decodeTaken (s : State) (e : Entry) : Decoded :=
  match e.state, Entry.parkedOp e with
  | .released, some (i, .push) => .operation i .push
  | .released, some (i, .pop) => .operation i .pop
  | _, _ => decodeRequest s e.access e.addr e.size

/-- The deadline the port takes if the taken entry parks: the kept one for a RELEASED entry, else the tick count plus
the stall limit of the line (R89). -/
def deadlineIfParked (s : State) (p : Port) (e : Entry) (d : Decoded) : Option (BitVec 32) :=
  match e.state, d with
  | .released, _ => (s.intake p).deadline
  | _, .operation i _ => some (s.tickCount + BitVec.ofNat 32 (s.line i).active.stallLimit)
  | _, _ => none

/-- The start of a take: the last-chosen port set, the class recorded, and the deadline of a retaken entry made absent
(R39, R89, R111). -/
def beginTake (p : Port) (e : Entry) (d : Decoded) (s : State) : State :=
  let s := updateEntry p e.tag (fun x => { x with cls := some (Decoded.toClass d) })
    { s with engine := { s.engine with lastChosen := p } }
  if e.state = .released then setDeadline p none s else s

/-- The take of entry `e` of port `p` (R109). -/
def takeEntry (p : Port) (e : Entry) (s : State) : State :=
  let d := decodeTaken s e
  performDecoded (deadlineIfParked s p e d) p e d (beginTake p e d s)

/-- TAKE: no take is made while a reset is held, the memory queue is full or no port offers (R106, R108). -/
def execTake (s : State) : Host.Outcome State Fault Refusal :=
  .next
    (if s.inReset ∨ Config.memPlaces ≤ s.memQueue.length then s
    else
      match nextTake s with
      | some (p, e) => takeEntry p e s
      | none => s)

end Sys2Proof.Machine
end

