-- ==== Sys2Proof/Machine/Frames.lean ====
section
/-! DEFINITION. Frames of the management link (chapter 9): what SDO carries, how a frame is judged when CSN rises, and
the held result. -/

namespace Sys2Proof.Machine

/-- The status codes (R152). -/
def LinkStatus.code : LinkStatus → Byte
  | .ok => 0x00
  | .badframe => 0x01
  | .badline => 0x02
  | .busy => 0x03
  | .invalid => 0x04
  | .notlive => 0x05
  | .notarmed => 0x06
  | .badtrigger => 0x07
  | .empty => 0x08

/-- Outbound byte `i` of a frame: status, length, the result bytes, then 0x00, and 0x00 after byte 39 (R150). -/
def Held.outboundByte (h : Held) (i : Nat) : Byte :=
  if Config.frameMax ≤ i then 0
  else
    match i with
    | 0 => LinkStatus.code h.status
    | 1 => BitVec.ofNat 8 h.bytes.length
    | j + 2 => (h.bytes[j]?).getD 0

/-- The outbound bytes of a frame of `n` bytes, fixed from the held result when CSN falls (R150). -/
def Held.outbound (h : Held) (n : Nat) : List Byte := (List.range n).map h.outboundByte

/-- A frame of these bytes shifted: the first 40 are captured, all are counted, and SDO carries the held result as it
stands; no other block's state changes (R150). -/
def shiftFrame (bytes : List Byte) (s : State) : State :=
  { s with
    link := { s.link with
      frame := { captured := bytes.take Config.frameMax, count := bytes.length,
                 sdo := s.link.held.outbound bytes.length } } }

/-- The held result replaced whole (R152). -/
def setHeld (h : Held) (s : State) : State := { s with link := { s.link with held := h } }

/-- An error status with no result bytes: how a frame that does not act, or a command refused, replies (R152). -/
def statusOnly (status : LinkStatus) : Held := { status := status, bytes := [] }

/-- Status OK with result bytes (R152). -/
def okWith (bytes : List Byte) : Held := { status := .ok, bytes := bytes }

/-- The end of a frame whose byte 0 is the code of `c` and whose other bytes are `rest`: nothing while PORSTN is low
(R153), BADFRAME for a frame longer than 40 bytes or of a length the command does not act on, else what `judged` does
(R151, checks 2, 4 and 5). -/
def endFrame (c : LinkCode) (rest : List Byte) (judged : State → State) (s : State) : State :=
  if s.porstnLow then s
  else
    let s := shiftFrame (c.toByte :: rest) s
    if Config.frameMax < rest.length + 1 ∨ LinkCode.lengthOk c rest = false then setHeld (statusOnly .badframe) s
    else judged s

/-- What a command that acts leaves: its state and its held result (R151, check 7). -/
def reply (answer : State × Held) : State := setHeld answer.2 answer.1

/-- The frame of a line command: BADLINE unless the line byte is 0 to 15, else the command acts on that line with the
bytes after the line byte (R151, checks 6 and 7). -/
def lineFrame (c : LinkCode) (rest : List Byte) (act : LineNo → List Byte → State → State × Held) (s : State) : State :=
  endFrame c rest
    (fun s =>
      match lineOfByte ((rest[0]?).getD 0) with
      | none => setHeld (statusOnly .badline) s
      | some i => reply (act i (rest.drop 1) s))
    s

/-- The frame of a part command: BADLINE unless the line byte is 0xFF, else the command acts with the bytes after it
(R151, checks 6 and 7). -/
def partFrame (c : LinkCode) (rest : List Byte) (act : List Byte → State → State × Held) (s : State) : State :=
  endFrame c rest
    (fun s =>
      if (rest[0]?).getD 0 = 0xFF then reply (act (rest.drop 1) s) else setHeld (statusOnly .badline) s)
    s

end Sys2Proof.Machine
end

