-- ==== Sys2Proof/Machine/LinkConfig.lean ====
section
/-! DEFINITION. The configuration commands of the link: IDENTIFY, STAGE, READ_STAGED, READ_ACTIVE, ARM and DISARM
(R119, R120 to R125, R155, R156). -/

namespace Sys2Proof.Machine

/-- IDENTIFY (R155). -/
def identifyPart (_args : List Byte) (s : State) : State × Held := (s, okWith Config.identity)

/-- The frame of IDENTIFY (R155, R160). -/
def execIdentify (rest : List Byte) (s : State) : Host.Outcome State Fault Refusal :=
  .next (partFrame .identify rest identifyPart s)

/-- STAGE: BUSY while a commit is pending, INVALID for a byte range outside the image, else the data bytes are written
into the staged image (R119). The arguments are offset, count and data bytes. -/
def stageLine (i : LineNo) (args : List Byte) (s : State) : State × Held :=
  let offset := ((args[0]?).getD 0).toNat
  let count := ((args[1]?).getD 0).toNat
  if (s.pendingOf i).isSome then (s, statusOnly .busy)
  else if count = 0 ∨ 32 < offset + count then (s, statusOnly .invalid)
  else (s.setStaged i ((s.stagedOf i).write offset ((args.drop 2).take count)), okWith [])

/-- The frame of STAGE (R119, R160). -/
def execStage (rest : List Byte) (s : State) : Host.Outcome State Fault Refusal :=
  .next (lineFrame .stage rest stageLine s)

/-- READ_STAGED (R118, R155). -/
def readStagedLine (i : LineNo) (_args : List Byte) (s : State) : State × Held :=
  (s, okWith (s.stagedOf i).toList)

/-- The frame of READ_STAGED (R155, R160). -/
def execReadStaged (rest : List Byte) (s : State) : Host.Outcome State Fault Refusal :=
  .next (lineFrame .readStaged rest readStagedLine s)

/-- READ_ACTIVE (R9, R155). -/
def readActiveLine (i : LineNo) (_args : List Byte) (s : State) : State × Held :=
  (s, okWith (s.line i).active.toList)

/-- The frame of READ_ACTIVE (R155, R160). -/
def execReadActive (rest : List Byte) (s : State) : Host.Outcome State Fault Refusal :=
  .next (lineFrame .readActive rest readActiveLine s)

/-- The triggers ARM names (R156). -/
inductive ArmTrigger where
  | pend (t : Trigger)
  | immediate
  deriving DecidableEq, Repr

/-- The trigger a trigger code names: MARK 0x00, WRAP 0x01, IMMEDIATE 0x02 (R156). -/
def armTrigger (b : Byte) : Option ArmTrigger :=
  match b.toNat with
  | 0 => some (.pend .mark)
  | 1 => some (.pend .wrap)
  | 2 => some .immediate
  | _ => none

/-- The reason codes of a clash (R160). -/
def ClashReason.code : ClashReason → Byte
  | .windowClash => 0x04
  | .ringClash => 0x05

/-- The INVALID result of an image check: reason and offset (R156, R160). -/
def ImageFault.held : ImageFault → Held
  | .field offset => { status := .invalid, bytes := [0x01, BitVec.ofNat 8 offset] }
  | .geometry => { status := .invalid, bytes := [0x02, 0x00] }
  | .selfOverlap => { status := .invalid, bytes := [0x03, 0x00] }

/-- The INVALID result of an IMMEDIATE commit that the clash check refuses (R156). -/
def clashHeld (reason : ClashReason) (other : LineNo) : Held :=
  { status := .invalid, bytes := [ClashReason.code reason, BitVec.ofNat 8 other.val] }

/-- An ARM whose checks have passed: a MARK or WRAP commit becomes pending (R123); an IMMEDIATE commit is applied, or
refused by the clash check without an incident (R124). -/
def armAccepted (i : LineNo) (t : ArmTrigger) (s : State) : State × Held :=
  match t with
  | .pend trigger => (s.setPending i (some trigger), okWith [])
  | .immediate =>
    match clashCheck s i (s.stagedOf i) with
    | some (reason, other) => (setOutcome i (.refused reason other) s, clashHeld reason other)
    | none => (applyCommit .commitUnit i s, okWith [])

/-- ARM: the checks of R120 in their order, the first that fails giving the status; then R123 or R124. The argument is
the trigger code. -/
def armLine (i : LineNo) (args : List Byte) (s : State) : State × Held :=
  if (s.pendingOf i).isSome then (s, statusOnly .busy)
  else
    match armTrigger ((args[0]?).getD 0) with
    | none => (s, statusOnly .badtrigger)
    | some t =>
      if t = .pend .wrap ∧ (s.line i).isLive = false then (s, statusOnly .badtrigger)
      else if (s.stagedOf i).isNone = true ∧ (s.line i).isLive = false then (s, statusOnly .notlive)
      else
        match imageFault (s.stagedOf i) with
        | some fault => (s, ImageFault.held fault)
        | none => armAccepted i t s

/-- The frame of ARM (R120, R156, R160). -/
def execArm (rest : List Byte) (s : State) : Host.Outcome State Fault Refusal :=
  .next (lineFrame .arm rest armLine s)

/-- DISARM: the pending commit removed and the outcome CANCELLED, or NOTARMED (R125). -/
def disarmLine (i : LineNo) (_args : List Byte) (s : State) : State × Held :=
  if (s.pendingOf i).isSome then (cancelPending i s, okWith []) else (s, statusOnly .notarmed)

/-- The frame of DISARM (R125, R156, R160). -/
def execDisarm (rest : List Byte) (s : State) : Host.Outcome State Fault Refusal :=
  .next (lineFrame .disarm rest disarmLine s)

end Sys2Proof.Machine
end

