-- ==== Sys2Proof/Machine/Incidents.lean ====
section
/-! DEFINITION. The incident unit's recording of one handed incident (R142 to R145, R147). -/

namespace Sys2Proof.Machine

/-- The kind of an incident, from its detail (R140). -/
def Detail.kind : Detail → Kind
  | .underrun _ _ => .underrun
  | .overrun _ => .overrun
  | .shape _ => .shape
  | .guard _ => .guard
  | .timeout _ => .timeout
  | .abandoned _ => .abandoned
  | .memfault _ => .memfault
  | .refused _ _ => .refused

/-- The code of a kind (R164). -/
def Kind.code : Kind → Nat
  | .underrun => 0
  | .overrun => 1
  | .shape => 2
  | .guard => 3
  | .timeout => 4
  | .abandoned => 5
  | .memfault => 6
  | .refused => 7

/-- The kind's enable is set (R142). -/
def IncidentUnit.enabled (u : IncidentUnit) (k : Kind) : Bool := u.enables.getLsbD (Kind.code k)

/-- A record takes an occurrence of an incident: same kind, line and port, and a repeat below 255 (R143). -/
def Record.takes (r : Record) (x : Incident) : Bool :=
  (Detail.kind r.incident.detail == Detail.kind x.detail) && (r.incident.line == x.line)
    && (r.incident.port == x.port) && decide (r.occurrences < Config.repeatMax)

/-- ALERT set to the level its inputs give (R147). -/
def refreshAlert (u : IncidentUnit) : IncidentUnit := { u with alertLow := alertOf u }

/-- The newest record's repeat rises by one; its sequence, address and detail are kept (R143, Coalesce). -/
def IncidentUnit.coalesce (u : IncidentUnit) (newest : Record) : IncidentUnit :=
  { u with records := u.records.dropLast ++ [{ newest with occurrences := newest.occurrences + 1 }] }

/-- A new record at the back with repeat 1 and the counter's number; the counter advances (R143, Append; R144). -/
def IncidentUnit.append (u : IncidentUnit) (x : Incident) : IncidentUnit :=
  refreshAlert
    { u with
      records := u.records ++ [{ sequence := u.counter, incident := x, occurrences := 1 }],
      counter := u.counter + 1 }

/-- The incident discarded and the overflow marker set (R143, Drop; R145). -/
def IncidentUnit.dropOne (u : IncidentUnit) : IncidentUnit := refreshAlert { u with overflow := true }

/-- An incident that no record takes: appended where there is room, else dropped (R143). -/
def IncidentUnit.appendOrDrop (u : IncidentUnit) (x : Incident) : IncidentUnit :=
  if u.records.length < Config.incidentPlaces then u.append x else u.dropOne

/-- One incident dealt with: ignored where its kind is disabled, else coalesced, appended or dropped (R142, R143). -/
def IncidentUnit.deal (u : IncidentUnit) (x : Incident) : IncidentUnit :=
  if u.enabled (Detail.kind x.detail) then
    match u.records.getLast? with
    | some newest =>
      if newest.takes x then u.coalesce newest else u.appendOrDrop x
    | none => u.appendOrDrop x
  else u

/-- The oldest incident handed by `source` and the others that stay on their way, in their order; nothing where the
source has handed none (R141). -/
def pickHanded (source : Source) : List Handed → Option (Incident × List Handed)
  | [] => none
  | h :: more =>
    if h.source = source then some (h.incident, more)
    else (pickHanded source more).map fun found => (found.1, h :: found.2)

/-- INCIDENT_ARRIVAL: the oldest incident handed by `source` and not yet dealt with is dealt with whole (R141, R143). -/
def execIncidentArrival (source : Source) (s : State) : Host.Outcome State Fault Refusal :=
  .next
    (match pickHanded source s.handed with
    | none => s
    | some (x, more) => { s with handed := more, incidents := s.incidents.deal x })

end Sys2Proof.Machine
end

