-- ==== Sys2Proof/Machine/LinkControl.lean ====
section
/-! DEFINITION. The control commands of the link: MARK, FLUSH, ENGAGE, DISENGAGE and CLEAR (R157). -/

namespace Sys2Proof.Machine

/-- The MARK command: one mark (R126). -/
def markPart (_args : List Byte) (s : State) : State × Held := (markEvent s, okWith [])

/-- The frame of MARK (R126, R157, R160). -/
def execMark (rest : List Byte) (s : State) : Host.Outcome State Fault Refusal :=
  .next (partFrame .mark rest markPart s)

/-- FLUSH: a LIVE line emptied and its parked and released entries abandoned; NOTLIVE for an IDLE line (R23, R99). -/
def flushLine (i : LineNo) (_args : List Byte) (s : State) : State × Held :=
  if (s.line i).isLive then
    (recomputeUrgency
      (abandon .link .flush (Entry.heldOn i) (s.setLine i (s.line i).emptied)), okWith [])
  else (s, statusOnly .notlive)

/-- The frame of FLUSH (R23, R157, R160). -/
def execFlush (rest : List Byte) (s : State) : Host.Outcome State Fault Refusal :=
  .next (lineFrame .flush rest flushLine s)

/-- The part mode set (R27). -/
def setMode (m : Mode) (s : State) : State := { s with engine := { s.engine with mode := m } }

/-- ENGAGE (R43). -/
def engagePart (_args : List Byte) (s : State) : State × Held := (setMode .engaged s, okWith [])

/-- The frame of ENGAGE (R43, R157, R160). -/
def execEngage (rest : List Byte) (s : State) : Host.Outcome State Fault Refusal :=
  .next (partFrame .engage rest engagePart s)

/-- DISENGAGE: mode TRANSPARENT, and every held entry of either port abandoned (R44, R100). -/
def disengagePart (_args : List Byte) (s : State) : State × Held :=
  (abandon .link .disengage (fun _ => true) (setMode .transparent s), okWith [])

/-- The frame of DISENGAGE (R44, R157, R160). -/
def execDisengage (rest : List Byte) (s : State) : Host.Outcome State Fault Refusal :=
  .next (partFrame .disengage rest disengagePart s)

/-- CLEAR on one line: its pending commit cancelled, the record IDLE with generation and outcome kept (R24, R139). -/
def clearLine (s : State) (i : LineNo) : State :=
  let s := cancelPending i s
  s.setLine i (s.line i).retired

/-- CLEAR on the incident unit: the queue emptied, the marker clear, ALERT released (R148). -/
def IncidentUnit.cleared (u : IncidentUnit) : IncidentUnit := refreshAlert { u with records := [], overflow := false }

/-- CLEAR: every line IDLE, pending commits cancelled, held entries answered ERROR without incident, the incident queue
emptied, urgency recomputed (R24, R101, R112, R139, R148). -/
def clearPart (_args : List Byte) (s : State) : State × Held :=
  let s := allLines.foldl clearLine s
  (recomputeUrgency
    { s with
      portA := endHeld (fun _ => true) s.portA, portB := endHeld (fun _ => true) s.portB,
      incidents := s.incidents.cleared },
    okWith [])

/-- The frame of CLEAR (R157, R160). -/
def execClear (rest : List Byte) (s : State) : Host.Outcome State Fault Refusal :=
  .next (partFrame .clear rest clearPart s)

end Sys2Proof.Machine
end

