-- ==== Sys2Proof/Machine/LinkIncidents.lean ====
section
/-! DEFINITION. The incident commands of the link: TAKE_INCIDENT, SET_ENABLES and CLEAR_OVERFLOW (R142, R145, R146,
R159), and the record image (R164). -/

namespace Sys2Proof.Machine

/-- The code of a SHAPE detail (R164). -/
def ShapeDetail.code : ShapeDetail → Byte
  | .straddle => 0
  | .misaligned => 1
  | .wrongSize => 2
  | .readOnlySlot => 3
  | .amendDenied => 4

/-- The code of a GUARD detail (R164). -/
def GuardDetail.code : GuardDetail → Byte
  | .read => 0
  | .write => 1

/-- The code of an OVERRUN detail (R164). -/
def OverrunDetail.code : OverrunDetail → Byte
  | .dropped => 0
  | .replaced => 1
  | .errored => 2

/-- The code of a TIMEOUT detail (R164). -/
def ParkedOp.code : ParkedOp → Byte
  | .pop => 0
  | .push => 1

/-- The code of a cause (R164). -/
def Cause.code : Cause → Byte
  | .flush => 0
  | .retire => 1
  | .hardCommit => 2
  | .disengage => 3

/-- The code of a purpose (R164). -/
def Purpose.code : Purpose → Byte
  | .plain => 0
  | .push => 1
  | .pop => 2
  | .tapRead => 3
  | .walkRead => 4
  | .amend => 5
  | .newestRead => 6

/-- Bytes 9 to 11 of a record image (R164). -/
def Detail.bytes : Detail → List Byte
  | .underrun reference fill => leBytes 3 (reference % 4096 + 4096 * (fill % 4096))
  | .overrun detail => [OverrunDetail.code detail, 0, 0]
  | .shape detail => [ShapeDetail.code detail, 0, 0]
  | .guard detail => [GuardDetail.code detail, 0, 0]
  | .timeout op => [ParkedOp.code op, 0, 0]
  | .abandoned cause => [Cause.code cause, 0, 0]
  | .memfault purpose => [Purpose.code purpose, 0, 0]
  | .refused .windowClash other => [0x04, BitVec.ofNat 8 other.val, 0]
  | .refused .ringClash other => [0x05, BitVec.ofNat 8 other.val, 0]

/-- The code of a record's port: A 0, B 1, absent 3 (R164). -/
def portCode : Option Port → Nat
  | some .A => 0
  | some .B => 1
  | none => 3

/-- A line number as a byte, 0xFF where it is absent (R160). -/
def lineByte : Option LineNo → Byte
  | some i => BitVec.ofNat 8 i.val
  | none => 0xFF

/-- The 12-byte record image (R164). -/
def Record.image (r : Record) : List Byte :=
  leBytes 2 r.sequence.toNat
    ++ [BitVec.ofNat 8 (Kind.code (Detail.kind r.incident.detail) + 16 * portCode r.incident.port),
      lineByte r.incident.line, BitVec.ofNat 8 r.occurrences]
    ++ leBytes 4 ((r.incident.addr).getD 0).toNat ++ Detail.bytes r.incident.detail

/-- TAKE_INCIDENT: the oldest record removed and its image returned, or EMPTY (R146). -/
def takeIncidentPart (_args : List Byte) (s : State) : State × Held :=
  match s.incidents.records with
  | [] => (s, statusOnly .empty)
  | r :: more => ({ s with incidents := refreshAlert { s.incidents with records := more } }, okWith r.image)

/-- The frame of TAKE_INCIDENT (R146, R159, R160). -/
def execTakeIncident (rest : List Byte) (s : State) : Host.Outcome State Fault Refusal :=
  .next (partFrame .takeIncident rest takeIncidentPart s)

/-- SET_ENABLES: all eight enables replaced by the argument byte (R142, R159). -/
def setEnablesPart (args : List Byte) (s : State) : State × Held :=
  ({ s with incidents := { s.incidents with enables := (args[0]?).getD 0 } }, okWith [])

/-- The frame of SET_ENABLES (R142, R159, R160). -/
def execSetEnables (rest : List Byte) (s : State) : Host.Outcome State Fault Refusal :=
  .next (partFrame .setEnables rest setEnablesPart s)

/-- CLEAR_OVERFLOW: the overflow marker cleared (R145). -/
def clearOverflowPart (_args : List Byte) (s : State) : State × Held :=
  ({ s with incidents := refreshAlert { s.incidents with overflow := false } }, okWith [])

/-- The frame of CLEAR_OVERFLOW (R145, R159, R160). -/
def execClearOverflow (rest : List Byte) (s : State) : Host.Outcome State Fault Refusal :=
  .next (partFrame .clearOverflow rest clearOverflowPart s)

end Sys2Proof.Machine
end

