-- ==== Sys2Proof/Machine/LinkQuery.lean ====
section
/-! DEFINITION. The query commands of the link: QUERY_LINE and QUERY_PART (R158, R162, R163). -/

namespace Sys2Proof.Machine

/-- The code of a port's parked indicator for line `i`: NONE 0, PARKED 1, RELEASED 2 (R102, R162). -/
def parkedIndicator (i : LineNo) (it : Intake) : Nat :=
  match it.openList.find? (Entry.heldOn i) with
  | none => 0
  | some e => if e.state = .parked then 1 else 2

/-- The line flags byte (R162). -/
def lineFlags (s : State) (i : LineNo) : Byte :=
  BitVec.ofNat 8
    (((s.line i).isLive).toNat + 2 * (s.line i).suspect.toNat + 4 * parkedIndicator i s.portA
      + 16 * parkedIndicator i s.portB)

/-- The code of a pending trigger: NONE 0, MARK 1, WRAP 2 (R162). -/
def triggerCode : Option Trigger → Byte
  | none => 0
  | some .mark => 1
  | some .wrap => 2

/-- The three bytes of the last commit outcome: code, reason, other line (R162). -/
def CommitOutcome.bytes : CommitOutcome → List Byte
  | .noneYet => [0, 0, 0xFF]
  | .appliedSoft => [1, 0, 0xFF]
  | .appliedHard => [2, 0, 0xFF]
  | .refused .windowClash other => [3, 0x04, BitVec.ofNat 8 other.val]
  | .refused .ringClash other => [3, 0x05, BitVec.ofNat 8 other.val]
  | .cancelled => [4, 0, 0xFF]

/-- The 16 bytes of QUERY_LINE (R162). -/
def queryLineBytes (s : State) (i : LineNo) : List Byte :=
  let l := s.line i
  [lineFlags s i, triggerCode (s.pendingOf i), l.generation] ++ CommitOutcome.bytes l.lastOutcome
    ++ leBytes 2 l.head ++ leBytes 2 l.tail ++ leBytes 2 l.fill ++ leBytes 2 l.walkA ++ leBytes 2 l.walkB

/-- QUERY_LINE (R158). -/
def queryLineReply (i : LineNo) (_args : List Byte) (s : State) : State × Held := (s, okWith (queryLineBytes s i))

/-- The frame of QUERY_LINE (R158, R160). -/
def execQueryLine (rest : List Byte) (s : State) : Host.Outcome State Fault Refusal :=
  .next (lineFrame .queryLine rest queryLineReply s)

/-- The code of the part mode (R163). -/
def Mode.code : Mode → Byte
  | .transparent => 0
  | .engaged => 1

/-- A Boolean as a byte, 0 or 1 (R163). -/
def flagByte (b : Bool) : Byte := BitVec.ofNat 8 b.toNat

/-- The 9 bytes of QUERY_PART (R163). -/
def queryPartBytes (s : State) : List Byte :=
  [Mode.code s.engine.mode] ++ leBytes 2 s.commit.markCount.toNat
    ++ [BitVec.ofNat 8 s.incidents.records.length, flagByte s.incidents.overflow, s.incidents.enables,
      flagByte s.engine.urgentA, flagByte s.engine.urgentB, BitVec.ofNat 8 s.memQueue.length]

/-- QUERY_PART (R158). -/
def queryPartReply (_args : List Byte) (s : State) : State × Held := (s, okWith (queryPartBytes s))

/-- The frame of QUERY_PART (R158, R160). -/
def execQueryPart (rest : List Byte) (s : State) : Host.Outcome State Fault Refusal :=
  .next (partFrame .queryPart rest queryPartReply s)

end Sys2Proof.Machine
end

