-- ==== Sys2Proof/Machine/LinkFrames.lean ====
section
/-! DEFINITION. RESULT, BADFRAME, and the end of a frame given by its raw bytes (R151, R152). -/

namespace Sys2Proof.Machine

/-- RESULT: the held result stays as it is, shifted out in the frame; the line byte is not examined (R151, check 4;
R152). -/
def execResult (rest : List Byte) (s : State) : Host.Outcome State Fault Refusal :=
  .next (endFrame .result rest (fun s => s) s)

/-- The end of a frame whose byte 0 is the code of `c` and whose other bytes are `rest` (R151). -/
def frameOfCode (c : LinkCode) (rest : List Byte) (s : State) : State :=
  match c with
  | .result => endFrame .result rest (fun s => s) s
  | .identify => partFrame .identify rest identifyPart s
  | .stage => lineFrame .stage rest stageLine s
  | .readStaged => lineFrame .readStaged rest readStagedLine s
  | .readActive => lineFrame .readActive rest readActiveLine s
  | .arm => lineFrame .arm rest armLine s
  | .disarm => lineFrame .disarm rest disarmLine s
  | .mark => partFrame .mark rest markPart s
  | .flush => lineFrame .flush rest flushLine s
  | .queryLine => lineFrame .queryLine rest queryLineReply s
  | .queryPart => partFrame .queryPart rest queryPartReply s
  | .engage => partFrame .engage rest engagePart s
  | .disengage => partFrame .disengage rest disengagePart s
  | .takeIncident => partFrame .takeIncident rest takeIncidentPart s
  | .setEnables => partFrame .setEnables rest setEnablesPart s
  | .clearOverflow => partFrame .clearOverflow rest clearOverflowPart s
  | .clear => partFrame .clear rest clearPart s

/-- The rising edge of CSN after a frame of these bytes (R150, R151): nothing while PORSTN is low (R153); the held
result kept after an empty frame; BADFRAME for one longer than 40 bytes or with an unknown code; else by its command. -/
def linkFrame (bytes : List Byte) (s : State) : State :=
  if s.porstnLow then s
  else
    match bytes with
    | [] => shiftFrame [] s
    | code :: rest =>
      match LinkCode.ofByte code with
      | some c => frameOfCode c rest s
      | none => setHeld (statusOnly .badframe) (shiftFrame (code :: rest) s)

/-- BADFRAME: a frame judged by its raw bytes (R151). -/
def execBadframe (bytes : List Byte) (s : State) : Host.Outcome State Fault Refusal := .next (linkFrame bytes s)

end Sys2Proof.Machine
end

