-- ==== Sys2Proof/Machine/MemoryPort.lean ====
section
/-! DEFINITION. The memory port's commands: presenting a transaction and the memory's answer (R113, R114, R116). -/

namespace Sys2Proof.Machine

/-- The memory queue after the memory has accepted its oldest transaction not yet accepted (R113). -/
def presentOldest : List Transaction → List Transaction
  | [] => []
  | t :: more => if t.presented then t :: presentOldest more else { t with presented := true } :: more

/-- PRESENT_TRANSACTION: transactions are presented in queue order (R113). -/
def execPresentTransaction (s : State) : Host.Outcome State Fault Refusal :=
  .next { s with memQueue := presentOldest s.memQueue }

/-- The suspect flag of a failing transaction's line set, where the line is LIVE at the answer (R20, R114). -/
def setSuspect (line : Option LineNo) (s : State) : State :=
  match line with
  | none => s
  | some i => if (s.line i).isLive then s.setLine i { s.line i with suspect := true } else s

/-- The MEMFAULT incident of a transaction whose origin is entry `e` of port `p` (R114). -/
def memfaultIncident (t : Transaction) (p : Port) (e : Entry) : Incident :=
  { line := t.line, port := some p, addr := some e.addr, detail := .memfault t.purpose }

/-- A memory fault, for a transaction that has an origin entry: MEMFAULT handed and suspect set (R114). -/
def memoryFault (t : Transaction) (p : Port) (e : Entry) (s : State) : State :=
  setSuspect t.line (hand .memoryPort (memfaultIncident t p e) s)

/-- The entry that issued a transaction, where it is still in its port's open list (R113). -/
def originEntry (s : State) (o : Origin) : Option Entry :=
  (s.intake o.port).openList.find? fun e => e.tag == o.tag

/-- The answer of a transaction with an origin: its entry READY with the status and, for a read, the data; by R114
where the status is ERROR (R113). -/
def answerOrigin (t : Transaction) (o : Origin) (status : Status) (data : Data) (s : State) : State :=
  match originEntry s o with
  | none => s
  | some e =>
    let s := answerEntry o.port e status data s
    match status with
    | .okay => s
    | .error => memoryFault t o.port e s

/-- MEMORY_ANSWER: the oldest transaction leaves the queue; the answer goes to its origin entry, or is discarded where
it has no origin; an answer on an empty queue is ignored (R113, R116). -/
def execMemoryAnswer (status : Status) (data : Data) (s : State) : Host.Outcome State Fault Refusal :=
  .next
    (match s.memQueue with
    | [] => s
    | t :: more =>
      let s := { s with memQueue := more }
      match t.origin with
      | none => s
      | some o => answerOrigin t o status data s)

end Sys2Proof.Machine
end

