-- ==== Sys2Proof/Machine/Pins.lean ====
section
/-! DEFINITION. The pins the part drives, each a view of its state (00_scope.md, Pin summary). -/

namespace Sys2Proof.Machine

/-- URGA or URGB is high while its port is urgent (R112). -/
def State.urgPin (s : State) (p : Port) : Bool := s.urgent p

/-- The level of ALERT: low, or released (R147). -/
def State.alertLow (s : State) : Bool := s.incidents.alertLow

/-- A port's request ready: the intake accepts while its list holds fewer than 4 entries and no reset is held
(R103, R106). -/
def State.requestReady (s : State) (p : Port) : Bool :=
  !s.inReset && decide ((s.intake p).openList.length < Config.openPlaces)

/-- The answer an intake presents: that of its front entry, where it is READY (R105). -/
def Intake.presented (it : Intake) : Option Answer :=
  match it.openList with
  | e :: _ => if e.state = .ready then e.answer else none
  | [] => none

/-- The transaction the memory port presents: the oldest one the memory has not accepted (R113). -/
def State.memoryRequest (s : State) : Option Transaction := s.memQueue.find? fun t => !t.presented

end Sys2Proof.Machine
end

