-- ==== Sys2Proof/Machine/Ports.lean ====
section
/-! DEFINITION. The port intakes' own commands: acceptance, delivery, the tick and the expiry (R89, R97, R103, R105). -/

namespace Sys2Proof.Machine

/-- A newly accepted entry: WAITING, with class and answer absent (R103). -/
def acceptedEntry (tag : Nat) (access : Access) (addr : Addr) (size : Size) : Entry :=
  { tag := tag, access := Access.cut size access, addr := addr, size := size, state := .waiting, cls := none,
    answer := none }

/-- The intake with a presented request at the back of its open list (R103). -/
def Intake.accept (it : Intake) (access : Access) (addr : Addr) (size : Size) : Intake :=
  { it with openList := it.openList ++ [acceptedEntry it.nextTag access addr size], nextTag := it.nextTag + 1 }

/-- REQUEST_ACCEPTANCE: the request is accepted while the list holds fewer than 4 entries and no reset is held;
otherwise it stays presented on the bus (R103, R106). -/
def execRequestAcceptance (port : Port) (access : Access) (addr : Addr) (size : Size) (s : State) :
    Host.Outcome State Fault Refusal :=
  .next
    (if s.inReset ∨ Config.openPlaces ≤ (s.intake port).openList.length then s
    else s.setIntake port ((s.intake port).accept access addr size))

/-- The intake without its READY front entry, whose answer the master has accepted; no answer leaves from any other
front (R105). -/
def Intake.deliver (it : Intake) : Intake :=
  match it.openList with
  | e :: more => if e.state = .ready then { it with openList := more } else it
  | [] => it

/-- ANSWER_DELIVERY: the master accepts the answer of the READY front entry, which leaves the list (R105). -/
def execAnswerDelivery (port : Port) (s : State) : Host.Outcome State Fault Refusal :=
  .next (s.setIntake port ((s.intake port).deliver))

/-- TICK: the tick count advances, modulo 2^32 (R89). -/
def execTick (s : State) : Host.Outcome State Fault Refusal := .next { s with tickCount := s.tickCount + 1 }

/-- The tick count has reached a deadline: the deadline does not lie ahead of it, a deadline being set at most 65535
ticks ahead (R89, log entry 6). -/
def deadlineReached (now deadline : BitVec 32) : Bool := decide ((now - deadline).toNat < 2 ^ 31)

/-- The TIMEOUT incident of an expired entry (R97). -/
def timeoutIncident (p : Port) (e : Entry) : Option Incident :=
  (Entry.parkedOp e).map fun c => { line := some c.1, port := some p, addr := some e.addr, detail := .timeout c.2 }

/-- The expiry of a port's PARKED or RELEASED entry: READY with ERROR, deadline absent, TIMEOUT handed (R97). -/
def expire (p : Port) (s : State) : State :=
  let ended := (heldEntries (fun _ => true) (s.intake p)).filterMap (timeoutIncident p)
  let s := setDeadline p none (s.setIntake p (endHeld (fun _ => true) (s.intake p)))
  { s with handed := s.handed ++ ended.map fun x => { source := .intake p, incident := x } }

/-- EXPIRY: the port's park deadline, if it has one that the tick count has reached, ends the port's held entry
(R97). -/
def execExpiry (port : Port) (s : State) : Host.Outcome State Fault Refusal :=
  .next
    (match (s.intake port).deadline with
    | none => s
    | some deadline => if deadlineReached s.tickCount deadline then expire port s else s)

end Sys2Proof.Machine
end

