-- ==== Sys2Proof/Machine/Resets.lean ====
section
/-! DEFINITION. The resets, their releases, and the MARK input (R25, R26, R106, R116, R126, R137, R138, R149, R153). -/

namespace Sys2Proof.Machine

/-- MARK_EDGE: a rising edge on MARK is a mark unless PORSTN or SYSRSTN is held low (R126). -/
def execMarkEdge (s : State) : Host.Outcome State Fault Refusal :=
  .next (if s.inReset then s else markEvent s)

/-- POWER_ON_RESET: every block in its initial state, and PORSTN low (R25, R101, R106, R111, R116, R137, R149,
R153). The commands that wait, and the level of SYSRSTN, are not the part's to reset. -/
def execPowerOnReset (s : State) : Host.Outcome State Fault Refusal :=
  .next { State.reset with porstnLow := true, sysrstnLow := s.sysrstnLow, pending := s.pending }

/-- POWER_ON_RESET_RELEASE: PORSTN returns high (R153). -/
def execPowerOnResetRelease (s : State) : Host.Outcome State Fault Refusal := .next { s with porstnLow := false }

/-- The line table and the commit unit at a system reset: pending commits cancelled, every line emptied
(R26, R138). -/
def resetLine (s : State) (i : LineNo) : State :=
  let s := cancelPending i s
  s.setLine i (s.line i).emptied

/-- An intake at a system reset: every entry discarded without an answer, the deadline absent (R106). -/
def Intake.discarded (it : Intake) : Intake := { it with openList := [], deadline := none }

/-- A transaction with its origin made absent (R116). -/
def Transaction.orphaned (t : Transaction) : Transaction := { t with origin := none }

/-- The effects of a system reset, made once when SYSRSTN is asserted (R26, R106, R111, R112, R116, R138). -/
def systemResetEffects (s : State) : State :=
  let s := allLines.foldl resetLine s
  recomputeUrgency
    { s with
      portA := s.portA.discarded, portB := s.portB.discarded,
      engine := { s.engine with lastChosen := .B },
      memQueue := s.memQueue.map Transaction.orphaned }

/-- SYSTEM_RESET: SYSRSTN goes low; an input that is low already is not asserted again (R26). -/
def execSystemReset (s : State) : Host.Outcome State Fault Refusal :=
  .next (if s.sysrstnLow then s else { systemResetEffects s with sysrstnLow := true })

/-- SYSTEM_RESET_RELEASE: SYSRSTN returns high (R106). -/
def execSystemResetRelease (s : State) : Host.Outcome State Fault Refusal := .next { s with sysrstnLow := false }

end Sys2Proof.Machine
end

