-- ==== Sys2Proof/Machine/Dispatch.lean ====
section
/-! DEFINITION. One arm per command: which meaning it has. -/

namespace Sys2Proof.Machine

/-- The effect of a command on everything but the queue of commands that wait. -/
def exec (i : Instr) (s : State) : Host.Outcome State Fault Refusal :=
  match i with
  | .requestAcceptance port access addr size => Sys2Proof.Machine.execRequestAcceptance port access addr size s
  | .take => Sys2Proof.Machine.execTake s
  | .presentTransaction => Sys2Proof.Machine.execPresentTransaction s
  | .memoryAnswer status data => Sys2Proof.Machine.execMemoryAnswer status data s
  | .answerDelivery port => Sys2Proof.Machine.execAnswerDelivery port s
  | .tick => Sys2Proof.Machine.execTick s
  | .expiry port => Sys2Proof.Machine.execExpiry port s
  | .markEdge => Sys2Proof.Machine.execMarkEdge s
  | .powerOnReset => Sys2Proof.Machine.execPowerOnReset s
  | .systemReset => Sys2Proof.Machine.execSystemReset s
  | .incidentArrival source => Sys2Proof.Machine.execIncidentArrival source s
  | .badframe bytes => Sys2Proof.Machine.execBadframe bytes s
  | .result rest => Sys2Proof.Machine.execResult rest s
  | .identify rest => Sys2Proof.Machine.execIdentify rest s
  | .stage rest => Sys2Proof.Machine.execStage rest s
  | .readStaged rest => Sys2Proof.Machine.execReadStaged rest s
  | .readActive rest => Sys2Proof.Machine.execReadActive rest s
  | .arm rest => Sys2Proof.Machine.execArm rest s
  | .disarm rest => Sys2Proof.Machine.execDisarm rest s
  | .mark rest => Sys2Proof.Machine.execMark rest s
  | .flush rest => Sys2Proof.Machine.execFlush rest s
  | .queryLine rest => Sys2Proof.Machine.execQueryLine rest s
  | .queryPart rest => Sys2Proof.Machine.execQueryPart rest s
  | .engage rest => Sys2Proof.Machine.execEngage rest s
  | .disengage rest => Sys2Proof.Machine.execDisengage rest s
  | .takeIncident rest => Sys2Proof.Machine.execTakeIncident rest s
  | .setEnables rest => Sys2Proof.Machine.execSetEnables rest s
  | .clearOverflow rest => Sys2Proof.Machine.execClearOverflow rest s
  | .clear rest => Sys2Proof.Machine.execClear rest s
  | .systemResetRelease => Sys2Proof.Machine.execSystemResetRelease s
  | .powerOnResetRelease => Sys2Proof.Machine.execPowerOnResetRelease s

end Sys2Proof.Machine
end

