-- ==== Sys2Proof/Safety.lean ====
section
/-! DEFINITION. What the manual says holds of every run: the invariants of each block's state. A run is safe where
every state of it meets `State.Inv`. -/

namespace Sys2Proof.Machine

/-! ## The line table and the commit unit -/

/-- A descriptor of a LIVE line: kind DELAY or QUEUE, and every check of ARM passes (R3 to R7, R121, R122). -/
def Image.inForce (d : Image) : Prop := (d.kind = 1 ∨ d.kind = 2) ∧ imageFault d = none

/-- A record of the line table: the IDLE values of R1 on an IDLE line, the ranges and the relation of R10 and R18 on a
LIVE one. -/
def Line.Ok (l : Line) : Prop :=
  match l.state with
  | .idle =>
    l.active = zeroImage ∧ l.head = 0 ∧ l.tail = 0 ∧ l.fill = 0 ∧ l.walkA = 0 ∧ l.walkB = 0 ∧ l.suspect = false
  | .live =>
    l.active.inForce ∧ l.fill ≤ l.L ∧ l.head < l.L ∧ l.tail < l.L
      ∧ l.tail = modL ((l.head : Int) - (l.fill : Int)) l.L
      ∧ l.walkA < l.active.tapCount ∧ l.walkB < l.active.tapCount

/-- Every record of the line table is as R1, R7, R10 and R18 say. -/
def State.LinesOk (s : State) : Prop := ∀ i : LineNo, (s.line i).Ok

/-- The window span or the ring span of one descriptor meets one of another. -/
def Image.spansMeet (d c : Image) : Bool :=
  Span.meets d.windowSpan c.windowSpan || Span.meets d.windowSpan c.ringSpan
    || Span.meets d.ringSpan c.windowSpan || Span.meets d.ringSpan c.ringSpan

/-- The windows and rings of different LIVE lines are disjoint (R8). -/
def State.SpansDisjoint (s : State) : Prop :=
  ∀ i j : LineNo, i ≠ j → (s.line i).isLive = true → (s.line j).isLive = true →
    (s.line i).active.spansMeet (s.line j).active = false

/-- A pending commit's image still passes ARM's checks (R120): the line is LIVE, or the commit is a MARK commit that
makes it LIVE. -/
def State.PendingOk (s : State) : Prop :=
  ∀ (i : LineNo) (t : Trigger), s.pendingOf i = some t →
    imageFault (s.stagedOf i) = none
      ∧ ((s.line i).isLive = true ∨ (t = .mark ∧ (s.stagedOf i).isNone = false))

/-- Each port's urgency, and with it URGA or URGB, is what the line table makes it (R112). -/
def State.UrgencyOk (s : State) : Prop :=
  s.engine.urgentA = urgencyOf s.engine.lines .A ∧ s.engine.urgentB = urgencyOf s.engine.lines .B

/-! ## Parked entries -/

/-- A PARKED or RELEASED entry is a push or a pop of a LIVE QUEUE line in ENGAGED mode; while it is PARKED its
policy is STALL and the queue is full for a push, empty for a pop (R88, R91, R92, R94). -/
def Entry.heldOk (s : State) (e : Entry) : Prop :=
  Entry.isHeld e = true →
    s.engine.mode = .engaged ∧
      match Entry.parkedOp e with
      | none => False
      | some (i, op) =>
        (s.line i).isLive = true ∧ (s.line i).active.isQueue = true ∧
          (e.state = .parked →
            match op with
            | .pop => (s.line i).fill = 0 ∧ (s.line i).active.underrunPolicy = 2
            | .push => (s.line i).fill = (s.line i).L ∧ (s.line i).active.overflowPolicy = 2)

/-- Every held entry of either port is as `Entry.heldOk` says. -/
def State.HeldOk (s : State) : Prop := ∀ (p : Port) (e : Entry), e ∈ (s.intake p).openList → Entry.heldOk s e

/-! ## Open lists and the memory queue -/

/-- Taken and no longer waiting on a line, then held, then WAITING: the order of an open list (R90, R107). -/
def EntryState.rank : EntryState → Nat
  | .issued => 0
  | .ready => 0
  | .parked => 1
  | .released => 1
  | .waiting => 2

/-- An earlier and a later entry of one open list: no entry is taken before an earlier one, at most one is held, and
tags rise (R88, R107). -/
def Entry.before (a b : Entry) : Prop :=
  EntryState.rank a.state ≤ EntryState.rank b.state
    ∧ ¬(EntryState.rank a.state = 1 ∧ EntryState.rank b.state = 1) ∧ a.tag < b.tag

/-- The fields of an entry that its state makes present (R104). -/
def Entry.fieldsOk (e : Entry) : Prop :=
  (e.cls.isSome = true ↔ e.state ≠ .waiting) ∧ (e.answer.isSome = true ↔ e.state = .ready)

/-- An intake: at most 4 entries in order, the deadline present exactly while an entry is held (R89, R103, R104). -/
def Intake.Ok (it : Intake) : Prop :=
  it.openList.length ≤ Config.openPlaces ∧ it.openList.Pairwise Entry.before
    ∧ (∀ e ∈ it.openList, e.tag < it.nextTag ∧ Entry.fieldsOk e)
    ∧ (it.deadline.isSome = true ↔ ∃ e ∈ it.openList, Entry.isHeld e = true)

/-- The tags of a port's ISSUED entries, in arrival order. -/
def Intake.issuedTags (it : Intake) : List Nat :=
  (it.openList.filter fun e => e.state == .issued).map fun e => e.tag

/-- The tag of the entry a transaction answers, where its origin is an entry of port `p`. -/
def Transaction.tagOn (p : Port) (t : Transaction) : Option Nat :=
  match t.origin with
  | some o => if o.port = p then some o.tag else none
  | none => none

/-- The memory queue holds at most 8 transactions, and for each port one for each ISSUED entry, in arrival order
(R108, R113). -/
def State.MemoryOk (s : State) : Prop :=
  s.memQueue.length ≤ Config.memPlaces
    ∧ ∀ p : Port, s.memQueue.filterMap (Transaction.tagOn p) = (s.intake p).issuedTags

/-- While a reset input is low the open lists are empty (R106). -/
def State.ResetOk (s : State) : Prop := s.inReset = true → ∀ p : Port, (s.intake p).openList = []

/-- The open lists, the deadlines and the memory queue of the state. -/
def State.QueuesOk (s : State) : Prop :=
  (∀ p : Port, (s.intake p).Ok) ∧ s.MemoryOk ∧ s.ResetOk

/-! ## The incident unit and the link -/

/-- Consecutive sequence numbers: each record's is one more, modulo 65536, than that of the record before it (R144). -/
def consecutive : List Record → Prop
  | a :: b :: more => b.sequence = a.sequence + 1 ∧ consecutive (b :: more)
  | _ => True

/-- The incident unit: at most 32 records in sequence, repeats 1 to 255, the counter one past the newest record, ALERT
as its inputs make it (R143, R144, R147). -/
def IncidentUnit.Ok (u : IncidentUnit) : Prop :=
  u.records.length ≤ Config.incidentPlaces ∧ (∀ r ∈ u.records, 1 ≤ r.occurrences ∧ r.occurrences ≤ Config.repeatMax)
    ∧ consecutive u.records ∧ (∀ r, u.records.getLast? = some r → u.counter = r.sequence + 1)
    ∧ u.alertLow = alertOf u

/-- The held result: at most 32 bytes, none with a status other than OK, but for the 2 bytes of ARM's INVALID
(R152). -/
def Held.Ok (h : Held) : Prop :=
  h.bytes.length ≤ 32 ∧ (h.status ≠ .ok → h.bytes = [] ∨ (h.status = .invalid ∧ h.bytes.length = 2))

/-- While PORSTN is low every block holds its initial state and nothing is on its way (R25, R137, R149, R153). -/
def State.HeldInitial (s : State) : Prop :=
  s.porstnLow = true →
    s.portA = Intake.initial ∧ s.portB = Intake.initial ∧ s.engine = LineEngine.initial
      ∧ s.commit = CommitUnit.initial ∧ s.memQueue = [] ∧ s.incidents = IncidentUnit.initial ∧ s.handed = []
      ∧ s.link = Link.initial

/-! ## The whole part -/

/-- What holds of every state a run reaches. -/
def State.Inv (s : State) : Prop :=
  s.LinesOk ∧ s.SpansDisjoint ∧ s.PendingOk ∧ s.UrgencyOk ∧ s.HeldOk ∧ s.QueuesOk
    ∧ s.incidents.Ok ∧ s.link.held.Ok ∧ s.HeldInitial

/-! ## Terms of the statements -/

/-- TAKE takes entry `e` of port `p` and decodes it as `d`: no reset is held, the memory queue has a free place, and the
arbiter's choice is that entry (R39, R108, R110). -/
def State.Takes (s : State) (p : Port) (e : Entry) (d : Decoded) : Prop :=
  s.inReset = false ∧ s.memQueue.length < Config.memPlaces ∧ nextTake s = some (p, e) ∧ decodeTaken s e = d

/-- The intakes after a take of entry `e` of port `p`: the taken entry becomes what `own` says, every other entry of
either port what `other` says; the deadline of a retaken entry is absent, every other is kept (R89, R109). -/
def State.IntakesAfter (s t : State) (p : Port) (e : Entry) (own other : Entry → Entry) : Prop :=
  ∀ q : Port, t.intake q =
    { s.intake q with
      openList := (s.intake q).openList.map fun x => if q = p ∧ x.tag = e.tag then own x else other x,
      deadline := if q = p ∧ e.state = .released then none else (s.intake q).deadline }

/-- An entry with its class recorded and in a new state. -/
def Entry.nowIs (d : Decoded) (state : EntryState) (x : Entry) : Entry :=
  { x with cls := some d.toClass, state := state }

/-- An entry with its class recorded, READY with an answer of this status, a read's OKAY data being the first bytes of
`data` and its ERROR data zero (R105). -/
def Entry.nowReady (d : Decoded) (status : Status) (data : Data) (x : Entry) : Entry :=
  { x with
    cls := some d.toClass, state := .ready,
    answer := some
      { status := status,
        readData :=
          match x.access, status with
          | .read, .okay => some (firstBytes x.size.bytes data)
          | .read, .error => some 0
          | .write _, _ => none } }

/-- The transaction entry `e` of port `p` issues at ring position `pos` of line `i`, whose record at the start of the
operation is `l`: e bytes at ring base + pos·e, with the entry's direction and data (R17, R41, R113). -/
def ringTransaction (p : Port) (e : Entry) (i : LineNo) (l : Line) (pos : Nat) (purpose : Purpose) : Transaction where
  access := e.access
  addr := BitVec.ofNat 32 (l.active.ringBase + pos * l.active.elemSize)
  size := Size.ofBytes l.active.elemSize
  origin := some { port := p, tag := e.tag }
  line := some i
  purpose := purpose
  presented := false

/-- What a take hands over for entry `e` of port `p` on line `i`: one incident with this detail (R38, R109, R140). -/
def takeIncident (p : Port) (e : Entry) (i : LineNo) (detail : Detail) : Handed where
  source := .lineEngine
  incident := { line := some i, port := some p, addr := some e.addr, detail := detail }

/-- The ring position of reference k: counted forward from tail on a QUEUE, back from the newest element on a DELAY line
(R15). -/
def positionOf (l : Line) (k : Nat) : Nat :=
  (if l.active.kind = 2 then ((l.tail : Int) + (k * l.active.spacing : Nat)) % (l.L : Int)
  else ((l.head : Int) - 1 - (k * l.active.spacing : Nat)) % (l.L : Int)).toNat

/-- The link after a frame of these bytes whose end leaves the held result `held` (R150, R152). -/
def State.linkAfter (s : State) (bytes : List Byte) (held : Held) : Link :=
  { held := held,
    frame := { captured := bytes.take 40, count := bytes.length, sdo := s.link.held.outbound bytes.length } }

/-- A line number as a frame's line byte (R160). -/
def lineNoByte (i : LineNo) : Byte := BitVec.ofNat 8 i.val

/-- No LIVE line other than `i` has a window or ring that a span of `d` meets (R130). -/
def State.NoClash (s : State) (i : LineNo) (d : Image) : Prop :=
  ∀ j : LineNo, j ≠ i → (s.line j).isLive = true → d.spansMeet (s.line j).active = false

/-- The clash check of R130 fails for an image of line `i`, with this reason and other line: the lowest-numbered LIVE
line that the new window span meets, or, where that meets none, that the new ring span meets. -/
def State.ClashesWith (s : State) (i : LineNo) (d : Image) (reason : ClashReason) (j : LineNo) : Prop :=
  let met := fun (r : Span) (k : LineNo) => k ≠ i ∧ (s.line k).isLive = true
    ∧ (Span.meets r (s.line k).active.windowSpan = true ∨ Span.meets r (s.line k).active.ringSpan = true)
  d.kind ≠ 0
    ∧ match reason with
      | .windowClash => met d.windowSpan j ∧ ∀ k : LineNo, k < j → ¬met d.windowSpan k
      | .ringClash => (∀ k : LineNo, ¬met d.windowSpan k) ∧ met d.ringSpan j ∧ ∀ k : LineNo, k < j → ¬met d.ringSpan k

/-- Kind, e, ring base and L of a staged image equal those of the LIVE line's active descriptor (R132). -/
def Line.KeptBy (l : Line) (d : Image) : Prop :=
  l.isLive = true ∧ d.kind = l.active.kind ∧ d.elemSize = l.active.elemSize ∧ d.ringBase = l.active.ringBase
    ∧ d.ringLength = l.active.ringLength

/-- Every entry of either port that is held and that `which` picks ended with ERROR, its deadline absent (R99, R101). -/
def State.HeldEnded (s t : State) (which : Entry → Bool) : Prop :=
  ∀ q : Port, t.intake q =
    { s.intake q with
      openList := (s.intake q).openList.map fun x =>
        if Entry.isHeld x = true ∧ which x = true then
          { x with state := .ready, answer := some { status := .error, readData := match x.access with
            | .read => some 0
            | .write _ => none } }
        else x,
      deadline := if (s.intake q).openList.any fun x => Entry.isHeld x && which x then none
        else (s.intake q).deadline }

/-- The ABANDONED incidents of the held entries of port `p` that `which` picks, each with its entry's line (R99). -/
def State.abandonedBy (s : State) (source : Source) (cause : Cause) (which : Entry → Bool) (p : Port) : List Handed :=
  ((s.intake p).openList.filter fun x => Entry.isHeld x && which x).map fun x =>
    { source := source,
      incident := { line := (Entry.parkedOp x).map Prod.fst, port := some p, addr := some x.addr,
                    detail := .abandoned cause } }

/-- `t` is `s` with the pending commit of line `i` cleared and its staged image applied as a soft commit: the descriptor
copied, walk cursors 0, generation and outcome advanced, the rest of the record kept, the entries parked on the line
whose policy is no longer STALL released, and urgency recomputed (R92, R133, R134). -/
def State.CommittedSoft (s t : State) (i : LineNo) : Prop :=
  t.engine = { s.engine with
      lines := s.engine.lines.set i
        { s.line i with
          active := s.stagedOf i, walkA := 0, walkB := 0, generation := (s.line i).generation + 1,
          lastOutcome := .appliedSoft },
      urgentA := urgencyOf t.engine.lines .A, urgentB := urgencyOf t.engine.lines .B }
    ∧ (∀ q : Port, t.intake q =
      { s.intake q with
        openList := (s.intake q).openList.map fun x =>
          if x.state = .parked
              ∧ ((Entry.parkedOp x = some (i, .pop) ∧ (s.stagedOf i).underrunPolicy ≠ 2)
                ∨ (Entry.parkedOp x = some (i, .push) ∧ (s.stagedOf i).overflowPolicy ≠ 2)) then
            { x with state := .released }
          else x })
    ∧ t = { s with
        portA := t.portA, portB := t.portB, engine := t.engine,
        commit := { s.commit with pendingCommit := s.commit.pendingCommit.set i none } }

/-- `t` is `s` with the pending commit of line `i` cleared and the line emptied by a hard or a retiring commit, which
leaves it in this state with this descriptor: cursors and suspect cleared, generation and outcome advanced, the line's
held entries abandoned with this cause, Port A's incident first, and urgency recomputed (R99, R133, R135, R136). -/
def State.CommittedEmpty (s t : State) (source : Source) (i : LineNo) (state : LineState) (active : Image)
    (cause : Cause) : Prop :=
  t.engine = { s.engine with
      lines := s.engine.lines.set i
        { state := state, active := active, head := 0, tail := 0, fill := 0, walkA := 0, walkB := 0,
          suspect := false, generation := (s.line i).generation + 1, lastOutcome := .appliedHard },
      urgentA := urgencyOf t.engine.lines .A, urgentB := urgencyOf t.engine.lines .B }
    ∧ s.HeldEnded t (Entry.heldOn i)
    ∧ t.handed = s.handed ++ s.abandonedBy source cause (Entry.heldOn i) .A
        ++ s.abandonedBy source cause (Entry.heldOn i) .B
    ∧ t = { s with
        portA := t.portA, portB := t.portB, engine := t.engine, handed := t.handed,
        commit := { s.commit with pendingCommit := s.commit.pendingCommit.set i none } }

/-- `t` is `s` with the pending commit of line `i` cleared and refused: the record kept but for its outcome, and a
REFUSED incident with neither port nor address handed (R131). -/
def State.CommitRefused (s t : State) (source : Source) (i : LineNo) (reason : ClashReason) (other : LineNo) : Prop :=
  t = { s with
    engine := { s.engine with
      lines := s.engine.lines.set i { s.line i with lastOutcome := .refused reason other } },
    commit := { s.commit with pendingCommit := s.commit.pendingCommit.set i none },
    handed := s.handed ++ [{
      source := source,
      incident := { line := some i, port := none, addr := none, detail := .refused reason other } }] }

/-- `t` is what becomes of `s` when the pending commit of line `i` is dealt with, in an event of `source`: refused where
the clash check fails, and else applied as the kind that the record and the staged image give it (R127, R129 to R132). -/
def State.CommitDealt (s t : State) (source : Source) (i : LineNo) : Prop :=
  (∀ (reason : ClashReason) (j : LineNo), s.ClashesWith i (s.stagedOf i) reason j →
    s.CommitRefused t source i reason j)
    ∧ ((s.stagedOf i).kind ≠ 0 → s.NoClash i (s.stagedOf i) →
      ((s.line i).KeptBy (s.stagedOf i) → s.CommittedSoft t i)
      ∧ (¬(s.line i).KeptBy (s.stagedOf i) →
        s.CommittedEmpty t source i .live (s.stagedOf i) .hardCommit))
    ∧ ((s.stagedOf i).kind = 0 → s.CommittedEmpty t source i .idle zeroImage .retire)

/-- The field at an offset of a staged image lies outside its range (R121); only the kind is examined where it is NONE. -/
def Image.fieldOut (d : Image) (offset : Nat) : Prop :=
  match offset with
  | 0 => 2 < d.kind
  | 1 => d.kind ≠ 0 ∧ ¬(d.elemSize = 2 ∨ d.elemSize = 4 ∨ d.elemSize = 8)
  | 2 => d.kind ≠ 0 ∧ ¬(1 ≤ d.spacing ∧ d.spacing ≤ 16)
  | 3 => d.kind ≠ 0 ∧ 2 < d.guard
  | 4 => (d.kind = 1 ∧ 1 < d.underrunPolicy) ∨ (d.kind = 2 ∧ 2 < d.underrunPolicy)
  | 5 => d.kind ≠ 0 ∧ 3 < d.overflowPolicy
  | 6 => d.kind ≠ 0 ∧ 2 < d.feeder
  | 7 => d.kind ≠ 0 ∧ 1 < d.amendPermit
  | 8 => d.kind ≠ 0 ∧ d.windowBase % 64 ≠ 0
  | 12 => d.kind ≠ 0 ∧ d.ringBase % 64 ≠ 0
  | 16 => (d.kind = 1 ∧ d.ringLength < 2) ∨ (d.kind = 2 ∧ d.ringLength < 1) ∨ (d.kind ≠ 0 ∧ 4096 < d.ringLength)
  | 18 => d.kind ≠ 0 ∧ ¬(1 ≤ d.tapCount ∧ d.tapCount ≤ 4096)
  | 20 => d.kind ≠ 0 ∧ d.ringLength < d.lowWater
  | 22 => d.kind ≠ 0 ∧ (d.underrunPolicy = 2 ∨ d.overflowPolicy = 2) ∧ d.stallLimit = 0
  | _ => False

/-- The tap geometry and both spans fit (R122). -/
def Image.Fits (d : Image) : Prop :=
  (d.tapCount - 1) * d.spacing ≤ d.ringLength - 1
    ∧ d.windowBase + (4 + d.tapCount) * d.elemSize ≤ 0x100000000
    ∧ d.ringBase + d.ringLength * d.elemSize ≤ 0x100000000

/-- Some byte address lies both in the window span and in the ring span of an image (R122). -/
def Image.OverlapsItself (d : Image) : Prop :=
  ∃ a : Nat, (d.windowBase ≤ a ∧ a < d.windowBase + (4 + d.tapCount) * d.elemSize)
    ∧ (d.ringBase ≤ a ∧ a < d.ringBase + d.ringLength * d.elemSize)

/-- The parked indicator of port `p` for line `i` reads `n`: NONE 0, PARKED 1, RELEASED 2 (R102). -/
def State.Indicates (s : State) (p : Port) (i : LineNo) (n : Nat) : Prop :=
  (n = 0 ∧ ∀ x ∈ (s.intake p).openList, Entry.heldOn i x = false)
    ∨ ∃ (before after : List Entry) (x : Entry), (s.intake p).openList = before ++ x :: after
      ∧ (∀ y ∈ before, Entry.heldOn i y = false) ∧ Entry.heldOn i x = true
      ∧ ((n = 1 ∧ x.state = .parked) ∨ (n = 2 ∧ x.state = .released))

/-- Byte `k` of a list of bytes, as a number. -/
def byteAt (bytes : List Byte) (k : Nat) : Nat := ((bytes[k]?).getD 0).toNat

/-- The kind code of an incident (R164). -/
def kindNumber : Detail → Nat
  | .underrun _ _ => 0
  | .overrun _ => 1
  | .shape _ => 2
  | .guard _ => 3
  | .timeout _ => 4
  | .abandoned _ => 5
  | .memfault _ => 6
  | .refused _ _ => 7

/-- The 24-bit value of a record image's detail bytes (R164). -/
def detailNumber : Detail → Nat
  | .underrun reference fill => reference + 4096 * fill
  | .overrun .dropped => 0
  | .overrun .replaced => 1
  | .overrun .errored => 2
  | .shape .straddle => 0
  | .shape .misaligned => 1
  | .shape .wrongSize => 2
  | .shape .readOnlySlot => 3
  | .shape .amendDenied => 4
  | .guard .read => 0
  | .guard .write => 1
  | .timeout .pop => 0
  | .timeout .push => 1
  | .abandoned .flush => 0
  | .abandoned .retire => 1
  | .abandoned .hardCommit => 2
  | .abandoned .disengage => 3
  | .memfault .plain => 0
  | .memfault .push => 1
  | .memfault .pop => 2
  | .memfault .tapRead => 3
  | .memfault .walkRead => 4
  | .memfault .amend => 5
  | .memfault .newestRead => 6
  | .refused .windowClash other => 4 + 256 * other.val
  | .refused .ringClash other => 5 + 256 * other.val

/-- The record and the incident have the same kind, line and port, and the repeat is below 255 (R143). -/
def Record.Matches (r : Record) (x : Incident) : Prop :=
  kindNumber r.incident.detail = kindNumber x.detail ∧ r.incident.line = x.line ∧ r.incident.port = x.port
    ∧ r.occurrences < 255

/-- The row of the opcode table whose frames carry this code (R160). -/
def LinkCode.command (rest : List Byte) : LinkCode → Instr
  | .result => .result rest
  | .identify => .identify rest
  | .stage => .stage rest
  | .readStaged => .readStaged rest
  | .readActive => .readActive rest
  | .arm => .arm rest
  | .disarm => .disarm rest
  | .mark => .mark rest
  | .flush => .flush rest
  | .queryLine => .queryLine rest
  | .queryPart => .queryPart rest
  | .engage => .engage rest
  | .disengage => .disengage rest
  | .takeIncident => .takeIncident rest
  | .setEnables => .setEnables rest
  | .clearOverflow => .clearOverflow rest
  | .clear => .clear rest

/-- The commands whose line byte names a line, 0 to 15; every other but RESULT needs 0xFF (R160). -/
def LinkCode.namesLine : LinkCode → Bool
  | .stage => true
  | .readStaged => true
  | .readActive => true
  | .arm => true
  | .disarm => true
  | .flush => true
  | .queryLine => true
  | .result => false
  | .identify => false
  | .mark => false
  | .queryPart => false
  | .engage => false
  | .disengage => false
  | .takeIncident => false
  | .setEnables => false
  | .clearOverflow => false
  | .clear => false

end Sys2Proof.Machine
end

