-- ==== Sys2Proof/Certificates/Slice0/Obligations.lean ====
section
/-! DEFINITION. The statements for the provers, in the order of the blocks: the step, the intakes, the line engine, the
memory port, the commit unit, the incident unit, the link, the resets, and the invariants. A statement that a next state
`t` equals `{ s with portA := t.portA, … }` says that every block it does not name there is unchanged. -/

open Sys2Proof Sys2Proof.Machine

/-! ## The step -/

/-- The step runs the front command of the queue with the queue's rest, and idles on an empty queue (the model's choice,
log entry 7). -/
def Obligations.StepRunsFrontCommand : Prop :=
  (∀ (c : Instr) (rest : List Instr) (s : State), s.pending = c :: rest → step s = exec c { s with pending := rest })
    ∧ ∀ s : State, s.pending = [] → step s = .next s

/-- No command reads or changes the queue of commands that wait (the model's own queue, log entry 7). -/
def Obligations.CommandsLeaveTheQueueAlone : Prop :=
  ∀ (c : Instr) (q : List Instr) (s t : State), exec c s = .next t →
    t.pending = s.pending ∧ exec c { s with pending := q } = .next { t with pending := q }

/-! ## The intakes -/

/-- R103: a presented request joins the back of a list that holds fewer than 4 entries, WAITING, with class and answer
absent and with write data of its size. (That bytes beyond the size are cut is the model's reading, log entry 1.) -/
def Obligations.AcceptanceAppendsWaitingEntry : Prop :=
  ∀ (p : Port) (access : Access) (addr : Addr) (size : Size) (s : State),
    s.inReset = false → (s.intake p).openList.length < 4 →
    ∃ (t : State) (e : Entry), exec (.requestAcceptance p access addr size) s = .next t
      ∧ (t.intake p).openList = (s.intake p).openList ++ [e]
      ∧ e.state = .waiting ∧ e.cls = none ∧ e.answer = none ∧ e.addr = addr ∧ e.size = size
      ∧ (match access with
        | .read => e.access = .read
        | .write data => ∃ kept : Data, e.access = .write kept ∧ kept.toNat = data.toNat % 2 ^ (8 * size.bytes))
      ∧ (t.intake p).deadline = (s.intake p).deadline ∧ t.intake (Port.other p) = s.intake (Port.other p)
      ∧ t = { s with portA := t.portA, portB := t.portB }

/-- R103, R106: a full list or a held reset accepts nothing; the request stays outside the part. -/
def Obligations.AcceptanceWaitsWhileFullOrInReset : Prop :=
  ∀ (p : Port) (access : Access) (addr : Addr) (size : Size) (s : State),
    s.inReset = true ∨ 4 ≤ (s.intake p).openList.length → exec (.requestAcceptance p access addr size) s = .next s

/-- R105: the answer of the READY front entry is presented, and its delivery removes that entry and nothing else; while
the front entry is not READY, or the list is empty, no answer is presented and none leaves. -/
def Obligations.DeliveryRemovesOnlyAReadyFront : Prop :=
  (∀ (p : Port) (e : Entry) (more : List Entry) (s : State),
    (s.intake p).openList = e :: more → e.state = .ready →
    (s.intake p).presented = e.answer
      ∧ exec (.answerDelivery p) s = .next (s.setIntake p { s.intake p with openList := more }))
  ∧ ∀ (p : Port) (s : State),
    (∀ (e : Entry) (more : List Entry), (s.intake p).openList = e :: more → e.state ≠ .ready) →
    (s.intake p).presented = none ∧ exec (.answerDelivery p) s = .next s

/-- R89: a tick advances the tick count modulo 2^32 and changes nothing else. (That it does so also while a reset input is
held low is the model's reading, log entry 10.) -/
def Obligations.TickAdvancesTheCount : Prop :=
  ∀ s : State, ∃ t : State, exec .tick s = .next t
    ∧ t.tickCount.toNat = (s.tickCount.toNat + 1) % 2 ^ 32 ∧ t = { s with tickCount := t.tickCount }

/-- R97: in the tick that reaches a port's deadline, its PARKED or RELEASED entry ends with ERROR and zero read data,
the deadline becomes absent, and TIMEOUT is handed with the entry's line, port, address and operation. -/
def Obligations.ExpiryEndsTheHeldEntry : Prop :=
  ∀ (p : Port) (before after : List Entry) (e : Entry) (i : LineNo) (op : ParkedOp) (s : State),
    (s.intake p).openList = before ++ e :: after → (∀ x ∈ before ++ after, Entry.isHeld x = false) →
    Entry.isHeld e = true → Entry.parkedOp e = some (i, op) → (s.intake p).deadline = some s.tickCount →
    ∃ t : State, exec (.expiry p) s = .next t
      ∧ t.intake p =
        { s.intake p with
          openList := before
            ++ { e with state := .ready, answer := some { status := .error, readData := match e.access with
                | .read => some 0
                | .write _ => none } } :: after,
          deadline := none }
      ∧ t.intake (Port.other p) = s.intake (Port.other p)
      ∧ t.handed = s.handed ++ [{ source := .intake p, incident :=
          { line := some i, port := some p, addr := some e.addr, detail := .timeout op } }]
      ∧ t = { s with portA := t.portA, portB := t.portB, handed := t.handed }

/-- R97, R98: a port without a deadline, or with one that lies ahead, ends nothing. -/
def Obligations.ExpiryWaitsForTheDeadline : Prop :=
  ∀ (p : Port) (s : State),
    ((s.intake p).deadline = none
      ∨ ∃ n : Nat, 1 ≤ n ∧ n ≤ 65535 ∧ (s.intake p).deadline = some (s.tickCount + BitVec.ofNat 32 n)) →
    exec (.expiry p) s = .next s

/-! ## Offers, the arbiter and the take -/

/-- R107: what a port offers. Nothing while an entry is PARKED; else the RELEASED entry; else the earliest WAITING
entry; nothing where all are ISSUED or READY. -/
def Obligations.OfferIsTheNextTakeableEntry : Prop :=
  ∀ it : Intake,
    ((∃ e ∈ it.openList, e.state = .parked) → it.offer = none)
    ∧ ((∀ e ∈ it.openList, e.state ≠ .parked) →
      (∀ (before after : List Entry) (e : Entry), it.openList = before ++ e :: after → e.state = .released →
        (∀ x ∈ before, x.state ≠ .released) → it.offer = some e)
      ∧ ((∀ e ∈ it.openList, e.state ≠ .released) →
        (∀ (before after : List Entry) (e : Entry), it.openList = before ++ e :: after → e.state = .waiting →
          (∀ x ∈ before, x.state ≠ .waiting) → it.offer = some e)
        ∧ ((∀ e ∈ it.openList, e.state ≠ .waiting) → it.offer = none)))

/-- R110: with both ports offering, the port that alone is urgent is chosen, and otherwise the port not chosen at the
last take; with one port offering, that port. -/
def Obligations.ArbiterChoosesByUrgencyThenAlternation : Prop :=
  ∀ s : State,
    (∀ a b : Entry, s.portA.offer = some a → s.portB.offer = some b →
      (s.engine.urgentA = true → s.engine.urgentB = false → nextTake s = some (.A, a))
      ∧ (s.engine.urgentA = false → s.engine.urgentB = true → nextTake s = some (.B, b))
      ∧ (s.engine.urgentA = s.engine.urgentB → s.engine.lastChosen = .A → nextTake s = some (.B, b))
      ∧ (s.engine.urgentA = s.engine.urgentB → s.engine.lastChosen = .B → nextTake s = some (.A, a)))
    ∧ (∀ a : Entry, s.portA.offer = some a → s.portB.offer = none → nextTake s = some (.A, a))
    ∧ (∀ b : Entry, s.portA.offer = none → s.portB.offer = some b → nextTake s = some (.B, b))
    ∧ (s.portA.offer = none → s.portB.offer = none → nextTake s = none)

/-- R106, R108, R109, R111: while a reset is held, while the memory queue holds 8 transactions, and while no port offers,
the engine takes nothing. Whatever a take does, it sets the last-chosen port, issues at most one transaction, with its
entry as origin, hands incidents behind those on their way, and touches no staged image, mark count, incident record, link
state or tick count. -/
def Obligations.EveryTakeIsBounded : Prop :=
  (∀ s : State, s.inReset = true ∨ 8 ≤ s.memQueue.length ∨ nextTake s = none → exec .take s = .next s)
  ∧ ∀ (s : State) (p : Port) (e : Entry) (d : Decoded), s.Takes p e d →
    ∃ t : State, exec .take s = .next t ∧ t.engine.lastChosen = p ∧ t.engine.mode = s.engine.mode
      ∧ (t.memQueue = s.memQueue
        ∨ ∃ x : Transaction, x.origin = some { port := p, tag := e.tag } ∧ x.presented = false
          ∧ t.memQueue = s.memQueue ++ [x])
      ∧ (∃ more : List Handed, t.handed = s.handed ++ more)
      ∧ t.commit.staged = s.commit.staged ∧ t.commit.markCount = s.commit.markCount
      ∧ t.incidents = s.incidents ∧ t.link = s.link ∧ t.tickCount = s.tickCount
      ∧ t.porstnLow = s.porstnLow ∧ t.sysrstnLow = s.sysrstnLow

/-- R28, R40: a plain entry is forwarded as one transaction with its direction, address, size and data, and becomes
ISSUED; in TRANSPARENT mode every WAITING entry is plain. -/
def Obligations.PlainEntryIsForwardedUnchanged : Prop :=
  (∀ (s : State) (e : Entry), s.engine.mode = .transparent → e.state = .waiting → decodeTaken s e = .plain)
  ∧ ∀ (s : State) (p : Port) (e : Entry), s.Takes p e .plain →
    ∃ t : State, exec .take s = .next t
      ∧ t.memQueue = s.memQueue ++ [{
          access := e.access
          addr := e.addr
          size := e.size
          origin := some { port := p, tag := e.tag }
          line := none
          purpose := .plain
          presented := false }]
      ∧ s.IntakesAfter t p e (Entry.nowIs .plain .issued) (fun x => x)
      ∧ t = { s with
          portA := t.portA, portB := t.portB, memQueue := t.memQueue, engine := { s.engine with lastChosen := p } }

/-! ## Decoding -/

/-- R30: a range that meets the window of a LIVE line and lies wholly inside none is refused as STRADDLE, charged to the
lowest-numbered line met. -/
def Obligations.StraddleChargesLowestWindowMet : Prop :=
  ∀ (s : State) (access : Access) (addr : Addr) (size : Size) (i : LineNo), s.engine.mode = .engaged →
    (s.line i).isLive = true → Span.meets (requestSpan addr size) (s.line i).active.windowSpan = true →
    (∀ j : LineNo, j < i → (s.line j).isLive = true →
      Span.meets (requestSpan addr size) (s.line j).active.windowSpan = false) →
    (∀ j : LineNo, (s.line j).isLive = true →
      Span.inside (requestSpan addr size) (s.line j).active.windowSpan = false) →
    decodeRequest s access addr size = .refused (.shape .straddle) i

/-- R31 to R35: a range wholly inside the window of one LIVE line is checked for alignment, then size, and then decoded
at its index, as the kind and the amend permit of the line say. (Descriptor values that no check admits, in states no
run reaches, are read as log entry 15 says.) -/
def Obligations.WindowAccessDecodesByIndex : Prop :=
  ∀ (s : State) (access : Access) (addr : Addr) (size : Size) (i : LineNo), s.engine.mode = .engaged →
    (s.line i).isLive = true → Span.inside (requestSpan addr size) (s.line i).active.windowSpan = true →
    (∀ j : LineNo, j ≠ i → (s.line j).isLive = true →
      Span.meets (requestSpan addr size) (s.line j).active.windowSpan = false) →
    let d := (s.line i).active
    let o := addr.toNat - d.windowBase
    let decoded := decodeRequest s access addr size
    (o % d.elemSize ≠ 0 → decoded = .refused (.shape .misaligned) i)
    ∧ (o % d.elemSize = 0 → size.bytes ≠ d.elemSize → decoded = .refused (.shape .wrongSize) i)
    ∧ (o % d.elemSize = 0 → size.bytes = d.elemSize →
      match access with
      | .read =>
        (o / d.elemSize = 0 → decoded = .operation i (if d.kind = 2 then .pop else .newestRead))
        ∧ (o / d.elemSize = 1 → decoded = .operation i (if d.kind = 2 then .walkPeek else .walkRead))
        ∧ (o / d.elemSize = 2 → decoded = .operation i .levelRead)
        ∧ (o / d.elemSize = 3 → decoded = .operation i .generationRead)
        ∧ ∀ k : Nat, o / d.elemSize = 4 + k →
          decoded = .operation i (if d.kind = 2 then .tapPeek k else .tapRead k)
      | .write _ =>
        (o / d.elemSize = 0 → decoded = .operation i .push)
        ∧ (o / d.elemSize = 1 →
          decoded = if d.amendPermit = 1 then .operation i .walkAmend else .refused (.shape .amendDenied) i)
        ∧ (o / d.elemSize = 2 →
          decoded = if d.kind = 2 then .operation i .discard else .refused (.shape .readOnlySlot) i)
        ∧ (o / d.elemSize = 3 → decoded = .refused (.shape .readOnlySlot) i)
        ∧ ∀ k : Nat, o / d.elemSize = 4 + k →
          decoded = if d.amendPermit = 1 then .operation i (.tapAmend k) else .refused (.shape .amendDenied) i)

/-- R4, R36, R37: a range that meets no window is refused as GUARD, charged to the lowest-numbered LIVE line whose ring
it meets and whose guard forbids the access, and is plain where no guard forbids it. (Descriptor values that no check
admits, in states no run reaches, are read as log entry 15 says.) -/
def Obligations.GuardDecidesPlainAccess : Prop :=
  ∀ (s : State) (access : Access) (addr : Addr) (size : Size), s.engine.mode = .engaged →
    (∀ j : LineNo, (s.line j).isLive = true →
      Span.meets (requestSpan addr size) (s.line j).active.windowSpan = false) →
    let forbids := fun j : LineNo => (s.line j).isLive = true
      ∧ Span.meets (requestSpan addr size) (s.line j).active.ringSpan = true
      ∧ match access with
        | .read => 2 ≤ (s.line j).active.guard
        | .write _ => 1 ≤ (s.line j).active.guard
    ((∀ j : LineNo, ¬forbids j) → decodeRequest s access addr size = .plain)
    ∧ ∀ i : LineNo, forbids i → (∀ j : LineNo, j < i → ¬forbids j) →
      decodeRequest s access addr size =
        .refused (.guard (match access with
          | .read => .read
          | .write _ => .write)) i

/-- R38: a refused entry is READY with ERROR and zero read data at its take; no transaction is issued, no line changes,
and one incident of the refusal's kind and detail is handed, charged to the line decoding named. -/
def Obligations.RefusalAnswersErrorAtTheTake : Prop :=
  ∀ (s : State) (p : Port) (e : Entry) (how : RefusedAs) (i : LineNo), s.Takes p e (.refused how i) →
    ∃ t : State, exec .take s = .next t
      ∧ s.IntakesAfter t p e (Entry.nowReady (.refused how i) .error 0) (fun x => x)
      ∧ t.handed = s.handed ++ [takeIncident p e i (match how with
          | .shape detail => .shape detail
          | .guard detail => .guard detail)]
      ∧ t = { s with
          portA := t.portA, portB := t.portB, handed := t.handed, engine := { s.engine with lastChosen := p } }

/-! ## Operations of lines -/

/-- R13, R50, R51: a push to a DELAY line, without a wrap commit, writes at head, advances head, raises fill to at most
L, derives tail and resets both walk cursors; nothing else of any line changes. (Descriptor values that no check
admits, in states no run reaches, are read as log entry 15 says.) -/
def Obligations.DelayPushWritesAtHead : Prop :=
  ∀ (s : State) (p : Port) (e : Entry) (i : LineNo), s.Takes p e (.operation i .push) →
    (s.line i).active.isQueue = false → ¬((s.line i).head + 1 = (s.line i).L ∧ s.pendingOf i = some .wrap) →
    let l := s.line i
    let head := if l.head + 1 = l.L then 0 else l.head + 1
    let fill := min (l.fill + 1) l.L
    ∃ t : State, exec .take s = .next t
      ∧ t.memQueue = s.memQueue ++ [ringTransaction p e i l l.head .push]
      ∧ s.IntakesAfter t p e (Entry.nowIs (.operation i .push) .issued) (fun x => x)
      ∧ t.engine = { s.engine with
          lastChosen := p,
          lines := s.engine.lines.set i
            { l with
              head := head, fill := fill, tail := (((head : Int) - (fill : Int)) % (l.L : Int)).toNat,
              walkA := 0, walkB := 0 } }
      ∧ t = { s with portA := t.portA, portB := t.portB, memQueue := t.memQueue, engine := t.engine }

/-- R12, R52, R75, R129 to R136: a stored push that wraps a line with a pending WRAP commit is the push it would be
with no commit pending, which `DelayPushWritesAtHead`, `EnqueueWritesAtHeadAndReleasesPops` and
`FullQueueReplacesOldest` describe, and then, as the last part of its take, the commit dealt with on the state the push
left: refused where the clash check fails, and else applied as a soft, hard or retiring commit. In particular a soft
commit on a DELAY line that meets no other LIVE line finds the cursors the push left, the push having written at its
old position. (Descriptor values that no check admits, in states no run reaches, are read as log entry 15 says.) -/
def Obligations.WrapAppliesSoftCommitInTheTake : Prop :=
  (∀ (s : State) (p : Port) (e : Entry) (i : LineNo), s.Takes p e (.operation i .push) →
    (s.line i).active.kind = 1 → (s.line i).isLive = true → (s.line i).head + 1 = (s.line i).L →
    s.pendingOf i = some .wrap → (s.stagedOf i).kind = 1 →
    (s.stagedOf i).elemSize = (s.line i).active.elemSize → (s.stagedOf i).ringBase = (s.line i).active.ringBase →
    (s.stagedOf i).ringLength = (s.line i).active.ringLength → s.NoClash i (s.stagedOf i) →
    let l := s.line i
    let fill := min (l.fill + 1) l.L
    ∃ t : State, exec .take s = .next t
      ∧ t.memQueue = s.memQueue ++ [ringTransaction p e i l l.head .push]
      ∧ t.line i =
        { l with
          active := s.stagedOf i, head := 0, fill := fill, tail := ((0 - (fill : Int)) % (l.L : Int)).toNat,
          walkA := 0, walkB := 0, generation := l.generation + 1, lastOutcome := .appliedSoft }
      ∧ t.pendingOf i = none ∧ t.stagedOf i = s.stagedOf i
      ∧ ∀ j : LineNo, j ≠ i → t.line j = s.line j ∧ t.pendingOf j = s.pendingOf j)
  ∧ ∀ (s : State) (p : Port) (e : Entry) (i : LineNo), s.Takes p e (.operation i .push) →
    (s.line i).head + 1 = (s.line i).L → s.pendingOf i = some .wrap →
    ((s.line i).active.isQueue = true →
      (s.line i).fill < (s.line i).L ∨ ((s.line i).fill = (s.line i).L ∧ (s.line i).active.overflowPolicy = 1)) →
    ∃ u t : State,
      exec .take { s with commit := { s.commit with pendingCommit := s.commit.pendingCommit.set i none } } = .next u
      ∧ exec .take s = .next t ∧ ({ u with commit := s.commit } : State).CommitDealt t .lineEngine i

/-- R15, R16, R54, R55, R57, R79, R81: a newest read, tap access or amend whose distance is below fill issues one
transaction at the position of its reference, counted back from the newest element of a DELAY line and forward from the
oldest of a QUEUE; no line changes. (Descriptor values that no check admits, in states no run reaches, are read as log
entry 15 says.) -/
def Obligations.ValidReferenceReachesItsPosition : Prop :=
  ∀ (s : State) (p : Port) (e : Entry) (i : LineNo) (op : LineOp) (k : Nat) (purpose : Purpose),
    ((op = .newestRead ∧ k = 0 ∧ purpose = .newestRead)
      ∨ ((op = .tapRead k ∨ op = .tapPeek k) ∧ purpose = .tapRead) ∨ (op = .tapAmend k ∧ purpose = .amend)) →
    s.Takes p e (.operation i op) → k * (s.line i).active.spacing < (s.line i).fill →
    let l := s.line i
    ∃ t : State, exec .take s = .next t
      ∧ t.memQueue = s.memQueue ++ [ringTransaction p e i l (positionOf l k) purpose]
      ∧ s.IntakesAfter t p e (Entry.nowIs (.operation i op) .issued) (fun x => x)
      ∧ t = { s with
          portA := t.portA, portB := t.portB, memQueue := t.memQueue, engine := { s.engine with lastChosen := p } }

/-- R49, R68: a newest read, tap access or amend whose distance is not below fill issues no transaction: READY at the
take, ERROR under the ERROR policy and else OKAY with the fill value, and UNDERRUN handed with the reference and the
fill; no line changes. (Descriptor values that no check admits, in states no run reaches, are read as log entry 15
says.) -/
def Obligations.UnderrunIsAnsweredByPolicy : Prop :=
  ∀ (s : State) (p : Port) (e : Entry) (i : LineNo) (op : LineOp) (k : Nat),
    ((op = .newestRead ∧ k = 0) ∨ op = .tapRead k ∨ op = .tapPeek k ∨ op = .tapAmend k) →
    s.Takes p e (.operation i op) → (s.line i).fill ≤ k * (s.line i).active.spacing →
    let status := if (s.line i).active.underrunPolicy = 1 then Status.error else Status.okay
    ∃ t : State, exec .take s = .next t
      ∧ s.IntakesAfter t p e (Entry.nowReady (.operation i op) status (s.line i).active.fillValue) (fun x => x)
      ∧ t.handed = s.handed ++ [takeIncident p e i (.underrun k (s.line i).fill)]
      ∧ t = { s with
          portA := t.portA, portB := t.portB, handed := t.handed, engine := { s.engine with lastChosen := p } }

/-- R18, R58, R60, R80, R81: a walk access uses its own port's walk cursor as reference; whether the reference is valid
or under-runs, that cursor alone advances, modulo T. (Descriptor values that no check admits, in states no run reaches,
are read as log entry 15 says.) -/
def Obligations.WalkAccessAdvancesOwnCursor : Prop :=
  ∀ (s : State) (p : Port) (e : Entry) (i : LineNo) (op : LineOp),
    (op = .walkRead ∨ op = .walkPeek ∨ op = .walkAmend) → s.Takes p e (.operation i op) →
    let l := s.line i
    let c := match p with
      | .A => l.walkA
      | .B => l.walkB
    let status := if l.active.underrunPolicy = 1 then Status.error else Status.okay
    ∃ t : State, exec .take s = .next t
      ∧ t.engine = { s.engine with
          lastChosen := p,
          lines := s.engine.lines.set i (match p with
            | .A => { l with walkA := (c + 1) % l.active.tapCount }
            | .B => { l with walkB := (c + 1) % l.active.tapCount }) }
      ∧ t = { s with
          portA := t.portA, portB := t.portB, memQueue := t.memQueue, handed := t.handed, engine := t.engine }
      ∧ (c * l.active.spacing < l.fill →
        t.memQueue = s.memQueue ++ [ringTransaction p e i l (positionOf l c) (if op = .walkAmend then .amend else .walkRead)]
        ∧ s.IntakesAfter t p e (Entry.nowIs (.operation i op) .issued) (fun x => x) ∧ t.handed = s.handed)
      ∧ (l.fill ≤ c * l.active.spacing →
        t.memQueue = s.memQueue
        ∧ s.IntakesAfter t p e (Entry.nowReady (.operation i op) status l.active.fillValue) (fun x => x)
        ∧ t.handed = s.handed ++ [takeIncident p e i (.underrun c l.fill)])

/-- R61, R62, R82, R84: a level read answers fill, a generation read the generation plus 256 while a commit is pending,
both READY with OKAY at the take, without a transaction or an incident. -/
def Obligations.LevelAndGenerationReadsAnswerAtTheTake : Prop :=
  ∀ (s : State) (p : Port) (e : Entry) (i : LineNo) (op : LineOp) (value : Nat),
    ((op = .levelRead ∧ value = (s.line i).fill)
      ∨ (op = .generationRead ∧ s.pendingOf i = none ∧ value = (s.line i).generation.toNat)
      ∨ (op = .generationRead ∧ s.pendingOf i ≠ none ∧ value = (s.line i).generation.toNat + 256)) →
    s.Takes p e (.operation i op) →
    ∃ t : State, exec .take s = .next t
      ∧ s.IntakesAfter t p e (Entry.nowReady (.operation i op) .okay (BitVec.ofNat 64 value)) (fun x => x)
      ∧ t = { s with portA := t.portA, portB := t.portB, engine := { s.engine with lastChosen := p } }

/-- R14, R70, R91: a push to a queue that is not full, without a wrap commit, writes at head, advances head, raises
fill by 1, keeps tail and both walk cursors, releases every pop parked on the line, and recomputes urgency. (Descriptor
values that no check admits, in states no run reaches, are read as log entry 15 says.) -/
def Obligations.EnqueueWritesAtHeadAndReleasesPops : Prop :=
  ∀ (s : State) (p : Port) (e : Entry) (i : LineNo), s.Takes p e (.operation i .push) →
    (s.line i).active.isQueue = true → (s.line i).fill < (s.line i).L →
    ¬((s.line i).head + 1 = (s.line i).L ∧ s.pendingOf i = some .wrap) →
    let l := s.line i
    ∃ t : State, exec .take s = .next t
      ∧ t.memQueue = s.memQueue ++ [ringTransaction p e i l l.head .push]
      ∧ s.IntakesAfter t p e (Entry.nowIs (.operation i .push) .issued) (fun x =>
          if x.state = .parked ∧ Entry.parkedOp x = some (i, .pop) then { x with state := .released } else x)
      ∧ t.engine = { s.engine with
          lastChosen := p,
          lines := s.engine.lines.set i
            { l with head := if l.head + 1 = l.L then 0 else l.head + 1, fill := l.fill + 1 },
          urgentA := urgencyOf t.engine.lines .A, urgentB := urgencyOf t.engine.lines .B }
      ∧ t = { s with portA := t.portA, portB := t.portB, memQueue := t.memQueue, engine := t.engine }

/-- R71, R72: a push to a full queue under DROP or ERROR is discarded, READY with OKAY or ERROR, with an OVERRUN
incident; no line changes and nothing is released. -/
def Obligations.FullQueueDropsOrErrors : Prop :=
  ∀ (s : State) (p : Port) (e : Entry) (i : LineNo) (status : Status) (detail : OverrunDetail),
    s.Takes p e (.operation i .push) → (s.line i).active.isQueue = true → (s.line i).L ≤ (s.line i).fill →
    (((s.line i).active.overflowPolicy = 0 ∧ status = .okay ∧ detail = .dropped)
      ∨ ((s.line i).active.overflowPolicy = 3 ∧ status = .error ∧ detail = .errored)) →
    ∃ t : State, exec .take s = .next t
      ∧ s.IntakesAfter t p e (Entry.nowReady (.operation i .push) status 0) (fun x => x)
      ∧ t.handed = s.handed ++ [takeIncident p e i (.overrun detail)]
      ∧ t = { s with
          portA := t.portA, portB := t.portB, handed := t.handed, engine := { s.engine with lastChosen := p } }

/-- R14, R73: a push to a full queue under REPLACE, without a wrap commit, writes at head, advances head and tail,
keeps fill at L, resets both walk cursors, and hands OVERRUN with detail replaced. (Descriptor values that no check
admits, in states no run reaches, are read as log entry 15 says.) -/
def Obligations.FullQueueReplacesOldest : Prop :=
  ∀ (s : State) (p : Port) (e : Entry) (i : LineNo), s.Takes p e (.operation i .push) →
    (s.line i).active.isQueue = true → (s.line i).fill = (s.line i).L → (s.line i).active.overflowPolicy = 1 →
    ¬((s.line i).head + 1 = (s.line i).L ∧ s.pendingOf i = some .wrap) →
    let l := s.line i
    ∃ t : State, exec .take s = .next t
      ∧ t.memQueue = s.memQueue ++ [ringTransaction p e i l l.head .push]
      ∧ s.IntakesAfter t p e (Entry.nowIs (.operation i .push) .issued) (fun x =>
          if x.state = .parked ∧ Entry.parkedOp x = some (i, .pop) then { x with state := .released } else x)
      ∧ t.handed = s.handed ++ [takeIncident p e i (.overrun .replaced)]
      ∧ t.engine = { s.engine with
          lastChosen := p,
          lines := s.engine.lines.set i
            { l with
              head := if l.head + 1 = l.L then 0 else l.head + 1, tail := (l.tail + 1) % l.L, walkA := 0,
              walkB := 0 } }
      ∧ t = { s with
          portA := t.portA, portB := t.portB, memQueue := t.memQueue, handed := t.handed, engine := t.engine }

/-- R74, R77, R88, R89: a WAITING push to a full queue under overflow STALL, or a WAITING pop from an empty queue under
under-run STALL, parks: the deadline is the tick count plus the stall limit, and nothing else happens. -/
def Obligations.StallParksTheEntry : Prop :=
  ∀ (s : State) (p : Port) (e : Entry) (i : LineNo) (op : LineOp),
    s.Takes p e (.operation i op) → e.state = .waiting →
    ((op = .push ∧ (s.line i).active.isQueue = true ∧ (s.line i).L ≤ (s.line i).fill
        ∧ (s.line i).active.overflowPolicy = 2)
      ∨ (op = .pop ∧ (s.line i).fill = 0 ∧ (s.line i).active.underrunPolicy = 2)) →
    ∃ t : State, exec .take s = .next t
      ∧ (t.intake p).deadline = some (s.tickCount + BitVec.ofNat 32 (s.line i).active.stallLimit)
      ∧ (t.intake p).openList = (s.intake p).openList.map (fun x =>
          if x.tag = e.tag then Entry.nowIs (.operation i op) .parked x else x)
      ∧ (t.intake p).nextTag = (s.intake p).nextTag ∧ t.intake (Port.other p) = s.intake (Port.other p)
      ∧ t = { s with portA := t.portA, portB := t.portB, engine := { s.engine with lastChosen := p } }

/-- R39, R89, R94, R95: a RELEASED push or pop is taken under the class of its first take, whatever its address now
meets, so that the statements about a push or a pop hold of its retake; where it blocks again under STALL it parks with
the deadline it had. -/
def Obligations.RetakeKeepsClassAndDeadline : Prop :=
  (∀ (s : State) (e : Entry) (i : LineNo) (op : LineOp), op = .push ∨ op = .pop → e.state = .released →
    e.cls = some (.operation i op) → decodeTaken s e = .operation i op)
  ∧ ∀ (s : State) (p : Port) (e : Entry) (i : LineNo) (op : LineOp),
    s.inReset = false → s.memQueue.length < 8 → nextTake s = some (p, e) → e.state = .released →
    e.cls = some (.operation i op) →
    ((op = .push ∧ (s.line i).active.isQueue = true ∧ (s.line i).L ≤ (s.line i).fill
        ∧ (s.line i).active.overflowPolicy = 2)
      ∨ (op = .pop ∧ (s.line i).fill = 0 ∧ (s.line i).active.underrunPolicy = 2)) →
    ∃ t : State, exec .take s = .next t ∧ (t.intake p).deadline = (s.intake p).deadline
      ∧ (t.intake p).openList = (s.intake p).openList.map (fun x =>
          if x.tag = e.tag then Entry.nowIs (.operation i op) .parked x else x)
      ∧ t.intake (Port.other p) = s.intake (Port.other p)
      ∧ t = { s with portA := t.portA, portB := t.portB, engine := { s.engine with lastChosen := p } }

/-- R14, R76, R91: a pop from a queue that is not empty reads at tail, advances tail, lowers fill by 1, keeps head,
resets both walk cursors, releases every push parked on the line, and recomputes urgency. (Descriptor values that no
check admits, in states no run reaches, are read as log entry 15 says.) -/
def Obligations.PopReadsAtTailAndReleasesPushes : Prop :=
  ∀ (s : State) (p : Port) (e : Entry) (i : LineNo), s.Takes p e (.operation i .pop) → 0 < (s.line i).fill →
    let l := s.line i
    ∃ t : State, exec .take s = .next t
      ∧ t.memQueue = s.memQueue ++ [ringTransaction p e i l l.tail .pop]
      ∧ s.IntakesAfter t p e (Entry.nowIs (.operation i .pop) .issued) (fun x =>
          if x.state = .parked ∧ Entry.parkedOp x = some (i, .push) then { x with state := .released } else x)
      ∧ t.engine = { s.engine with
          lastChosen := p,
          lines := s.engine.lines.set i
            { l with tail := (l.tail + 1) % l.L, fill := l.fill - 1, walkA := 0, walkB := 0 },
          urgentA := urgencyOf t.engine.lines .A, urgentB := urgencyOf t.engine.lines .B }
      ∧ t = { s with portA := t.portA, portB := t.portB, memQueue := t.memQueue, engine := t.engine }

/-- R77: a pop from an empty queue under FILL or ERROR is READY at the take with the fill value or ERROR, and hands
UNDERRUN with reference 0 and fill 0; no line changes. -/
def Obligations.EmptyPopUnderruns : Prop :=
  ∀ (s : State) (p : Port) (e : Entry) (i : LineNo), s.Takes p e (.operation i .pop) → (s.line i).fill = 0 →
    (s.line i).active.underrunPolicy ≤ 1 →
    let status := if (s.line i).active.underrunPolicy = 1 then Status.error else Status.okay
    ∃ t : State, exec .take s = .next t
      ∧ s.IntakesAfter t p e (Entry.nowReady (.operation i .pop) status (s.line i).active.fillValue) (fun x => x)
      ∧ t.handed = s.handed ++ [takeIncident p e i (.underrun 0 0)]
      ∧ t = { s with
          portA := t.portA, portB := t.portB, handed := t.handed, engine := { s.engine with lastChosen := p } }

/-- R14, R83, R91: a discard of n removes m = min(n, fill) elements from the oldest end and answers OKAY at the take; with
m > 0 it resets both walk cursors, releases every push parked on the line and recomputes urgency, and with m = 0 it
changes no line and releases nothing. -/
def Obligations.DiscardRemovesFromTheOldestEnd : Prop :=
  ∀ (s : State) (p : Port) (e : Entry) (i : LineNo) (n : Data),
    s.Takes p e (.operation i .discard) → e.access = .write n →
    let l := s.line i
    let m := min n.toNat l.fill
    ∃ t : State, exec .take s = .next t
      ∧ t = { s with portA := t.portA, portB := t.portB, engine := t.engine }
      ∧ (0 < m →
        s.IntakesAfter t p e (Entry.nowReady (.operation i .discard) .okay 0) (fun x =>
          if x.state = .parked ∧ Entry.parkedOp x = some (i, .push) then { x with state := .released } else x)
        ∧ t.engine = { s.engine with
            lastChosen := p,
            lines := s.engine.lines.set i
              { l with tail := (l.tail + m) % l.L, fill := l.fill - m, walkA := 0, walkB := 0 },
            urgentA := urgencyOf t.engine.lines .A, urgentB := urgencyOf t.engine.lines .B })
      ∧ (m = 0 →
        s.IntakesAfter t p e (Entry.nowReady (.operation i .discard) .okay 0) (fun x => x)
        ∧ t.engine = { s.engine with lastChosen := p })

/-! ## The memory port -/

/-- R113: presenting makes the oldest transaction the memory has not accepted an accepted one; the queue's order and
everything else stay. (That the memory port works on while SYSRSTN is held low is the model's reading, log entry 11.)
-/
def Obligations.PresentingGoesInQueueOrder : Prop :=
  ∀ (s : State) (before after : List Transaction) (x : Transaction),
    s.memQueue = before ++ x :: after → (∀ y ∈ before, y.presented = true) → x.presented = false →
    s.memoryRequest = some x
      ∧ exec .presentTransaction s = .next { s with memQueue := before ++ { x with presented := true } :: after }

/-- R113, R114, R20: a memory answer removes the oldest transaction and makes its origin entry READY with the status
and, for a read, the data of the request's size or zero with ERROR; with ERROR, MEMFAULT is handed and the suspect flag
of the transaction's line is set if that line is LIVE, and nothing a take did is undone. (That the oldest transaction
need not have been accepted is the model's reading, log entry 9.) (That the memory port works on while SYSRSTN is held
low is the model's reading, log entry 11.) (That bytes beyond the size are cut is the model's reading, log entry 1.) -/
def Obligations.MemoryAnswerMakesTheOriginReady : Prop :=
  ∀ (s : State) (x : Transaction) (more : List Transaction) (o : Origin) (before after : List Entry) (e : Entry)
    (status : Status) (data : Data),
    s.memQueue = x :: more → x.origin = some o → (s.intake o.port).openList = before ++ e :: after →
    e.tag = o.tag → (∀ y ∈ before ++ after, y.tag ≠ o.tag) →
    ∃ t : State, exec (.memoryAnswer status data) s = .next t ∧ t.memQueue = more
      ∧ t.intake o.port =
        { s.intake o.port with
          openList := before
            ++ { e with state := .ready, answer := some { status := status, readData := match e.access, status with
                | .read, .okay => some (firstBytes e.size.bytes data)
                | .read, .error => some 0
                | .write _, _ => none } } :: after }
      ∧ t.intake (Port.other o.port) = s.intake (Port.other o.port)
      ∧ t.handed = s.handed ++ (match status with
        | .okay => []
        | .error => [{ source := .memoryPort, incident :=
            { line := x.line, port := some o.port, addr := some e.addr, detail := .memfault x.purpose } }])
      ∧ t.engine = (match status, x.line with
        | .error, some i =>
          if (s.line i).isLive then
            { s.engine with lines := s.engine.lines.set i { s.line i with suspect := true } }
          else s.engine
        | _, _ => s.engine)
      ∧ t = { s with
          portA := t.portA, portB := t.portB, memQueue := t.memQueue, handed := t.handed, engine := t.engine }

/-- R113, R116: the answer of a transaction without an origin frees its place and is discarded, even with ERROR; an
answer on an empty queue is ignored. (That the oldest transaction need not have been accepted is the model's reading,
log entry 9.) (That the memory port works on while SYSRSTN is held low is the model's reading, log entry 11.) -/
def Obligations.AnswersWithoutOriginAreDiscarded : Prop :=
  (∀ (s : State) (x : Transaction) (more : List Transaction) (status : Status) (data : Data),
    s.memQueue = x :: more → x.origin = none → exec (.memoryAnswer status data) s = .next { s with memQueue := more })
  ∧ ∀ (s : State) (status : Status) (data : Data), s.memQueue = [] → exec (.memoryAnswer status data) s = .next s


/-! ## The commit unit -/

/-- R126, R127, R130 to R136: a rising edge on MARK is no mark while a reset input is low; otherwise the mark count
advances modulo 65536, every commit pending with trigger MARK ends, applied with the generation advanced or refused with
the line otherwise kept, and no other line, pending commit or staged image changes; with none pending, the count alone
changes. The commits are dealt with in ascending line order, each against the state `u i` that the lower lines' commits
left: refused, with a REFUSED incident, where the clash check fails there, and else applied, soft, hard or retiring, with
the descriptor, the state, the cursors, the releases, the abandonments and the urgency its kind gives. -/
def Obligations.MarkCountsAndDealsWithMarkCommits : Prop :=
  (∀ s : State, s.inReset = true → exec .markEdge s = .next s)
  ∧ ∀ s : State, s.inReset = false →
    ∃ t : State, exec .markEdge s = .next t
      ∧ t.commit.markCount.toNat = (s.commit.markCount.toNat + 1) % 65536
      ∧ t.commit.staged = s.commit.staged
      ∧ (∀ i : LineNo, t.pendingOf i = if s.pendingOf i = some .mark then none else s.pendingOf i)
      ∧ (∀ i : LineNo, s.pendingOf i ≠ some .mark → t.line i = s.line i)
      ∧ (∀ i : LineNo, s.pendingOf i = some .mark →
        ((t.line i).generation = (s.line i).generation + 1 ∧ (t.line i).walkA = 0 ∧ (t.line i).walkB = 0
          ∧ ((t.line i).lastOutcome = .appliedSoft ∨ (t.line i).lastOutcome = .appliedHard))
        ∨ ∃ (reason : ClashReason) (j : LineNo), t.line i = { s.line i with lastOutcome := .refused reason j })
      ∧ ((∀ i : LineNo, s.pendingOf i ≠ some .mark) →
        t = { s with commit := { s.commit with markCount := t.commit.markCount } })
      ∧ t.engine.mode = s.engine.mode ∧ t.engine.lastChosen = s.engine.lastChosen
      ∧ t = { s with
          portA := t.portA, portB := t.portB, engine := t.engine, commit := t.commit, handed := t.handed }
      ∧ ∃ u : Nat → State, u 0 = { s with commit := { s.commit with markCount := t.commit.markCount } } ∧ u 16 = t
        ∧ ∀ i : LineNo,
          (s.pendingOf i ≠ some .mark → u (i.val + 1) = u i.val)
          ∧ (s.pendingOf i = some .mark → (u i.val).CommitDealt (u (i.val + 1)) .commitUnit i)

/-- R126, R138, R157: the MARK command makes the same mark as an edge outside reset, also while SYSRSTN is low, and
replies OK. (The frame that the link keeps afterwards is the model's choice, log entry 4.) -/
def Obligations.MarkCommandMakesTheSameMark : Prop :=
  ∀ (s : State) (more : List Byte), s.porstnLow = false → more.length ≤ 38 →
    ∃ u : State, exec .markEdge { s with sysrstnLow := false } = .next u
      ∧ exec (.mark (0xFF :: more)) s = .next { u with
          sysrstnLow := s.sysrstnLow, link := s.linkAfter (0x15 :: 0xFF :: more) { status := .ok, bytes := [] } }

/-- R124, R130, R131, R156: a commit whose clash check fails leaves the line as it was but for its last commit outcome.
At a mark it also clears the pending commit and hands a REFUSED incident with neither port nor address; within an
IMMEDIATE ARM it hands none and the reply is INVALID with the reason and the other line. (The frame that the link keeps
afterwards is the model's choice, log entry 4.) -/
def Obligations.ClashRefusesTheCommit : Prop :=
  ∀ (s : State) (i j : LineNo) (reason : ClashReason), s.ClashesWith i (s.stagedOf i) reason j →
    let refused := { s.engine with
      lines := s.engine.lines.set i { s.line i with lastOutcome := .refused reason j } }
    (s.inReset = false → s.pendingOf i = some .mark → (∀ k : LineNo, k ≠ i → s.pendingOf k ≠ some .mark) →
      exec .markEdge s = .next { s with
        engine := refused
        commit := { s.commit with
          pendingCommit := s.commit.pendingCommit.set i none, markCount := s.commit.markCount + 1 }
        handed := s.handed ++ [{
          source := .commitUnit
          incident := { line := some i, port := none, addr := none, detail := .refused reason j } }] })
    ∧ (s.porstnLow = false → s.pendingOf i = none → imageFault (s.stagedOf i) = none →
      ∀ more : List Byte, more.length ≤ 37 →
        exec (.arm (lineNoByte i :: 0x02 :: more)) s = .next { s with
          engine := refused
          link := s.linkAfter (0x13 :: lineNoByte i :: 0x02 :: more) {
            status := .invalid
            bytes := [match reason with
              | .windowClash => 0x04
              | .ringClash => 0x05, lineNoByte j] } })

/-- R123, R156: an ARM with trigger MARK, or WRAP on a LIVE line, that passes its checks makes the commit pending,
replies OK and changes nothing else. (The frame that the link keeps afterwards is the model's choice, log entry 4.) -/
def Obligations.ArmMakesTheCommitPending : Prop :=
  ∀ (s : State) (i : LineNo) (t : Trigger) (code : Byte) (more : List Byte),
    s.porstnLow = false → more.length ≤ 37 → s.pendingOf i = none → imageFault (s.stagedOf i) = none →
    ((s.stagedOf i).kind = 0 → (s.line i).isLive = true) →
    ((t = .mark ∧ code = 0x00) ∨ (t = .wrap ∧ code = 0x01 ∧ (s.line i).isLive = true)) →
    exec (.arm (lineNoByte i :: code :: more)) s = .next { s with
      commit := { s.commit with pendingCommit := s.commit.pendingCommit.set i (some t) }
      link := s.linkAfter (0x13 :: lineNoByte i :: code :: more) { status := .ok, bytes := [] } }

/-- R92, R124, R132 to R134: an IMMEDIATE commit on a LIVE line that keeps kind, e, ring base and L is soft: the
descriptor becomes the staged image, head, tail, fill and suspect are kept, the walk cursors become 0, the generation
advances, the parked entries whose policy is no longer STALL are released with their deadlines kept, and urgency is
recomputed. (The frame that the link keeps afterwards is the model's choice, log entry 4.) -/
def Obligations.ImmediateSoftCommitKeepsTheContents : Prop :=
  ∀ (s : State) (i : LineNo) (more : List Byte),
    s.porstnLow = false → more.length ≤ 37 → s.pendingOf i = none → imageFault (s.stagedOf i) = none →
    (s.stagedOf i).kind ≠ 0 → (s.line i).KeptBy (s.stagedOf i) → s.NoClash i (s.stagedOf i) →
    ∃ t : State, exec (.arm (lineNoByte i :: 0x02 :: more)) s = .next t
      ∧ t.engine = { s.engine with
          lines := s.engine.lines.set i
            { s.line i with
              active := s.stagedOf i, walkA := 0, walkB := 0, generation := (s.line i).generation + 1,
              lastOutcome := .appliedSoft },
          urgentA := urgencyOf t.engine.lines .A, urgentB := urgencyOf t.engine.lines .B }
      ∧ (∀ q : Port, t.intake q =
        { s.intake q with
          openList := (s.intake q).openList.map fun x =>
            if x.state = .parked
                ∧ ((Entry.parkedOp x = some (i, .pop) ∧ (s.stagedOf i).underrunPolicy ≠ 2)
                  ∨ (Entry.parkedOp x = some (i, .push) ∧ (s.stagedOf i).overflowPolicy ≠ 2)) then
              { x with state := .released }
            else x })
      ∧ t.link = s.linkAfter (0x13 :: lineNoByte i :: 0x02 :: more) { status := .ok, bytes := [] }
      ∧ t = { s with portA := t.portA, portB := t.portB, engine := t.engine, link := t.link }

/-- R99, R124, R132, R133, R135, R136: an IMMEDIATE commit that makes an IDLE line LIVE or changes kind, e, ring base
or L is hard, and one of kind NONE on a LIVE line retires it. Either empties the line, clears suspect, advances the
generation, abandons the line's held entries with its cause, Port A's incident first, and recomputes urgency. (The
frame that the link keeps afterwards is the model's choice, log entry 4.) -/
def Obligations.ImmediateHardOrRetiringCommitEmptiesTheLine : Prop :=
  ∀ (s : State) (i : LineNo) (more : List Byte) (state : LineState) (active : Image) (cause : Cause),
    s.porstnLow = false → more.length ≤ 37 → s.pendingOf i = none → imageFault (s.stagedOf i) = none →
    (((s.stagedOf i).kind ≠ 0 ∧ ¬(s.line i).KeptBy (s.stagedOf i) ∧ s.NoClash i (s.stagedOf i)
        ∧ state = .live ∧ active = s.stagedOf i ∧ cause = .hardCommit)
      ∨ ((s.stagedOf i).kind = 0 ∧ (s.line i).isLive = true
        ∧ state = .idle ∧ active = zeroImage ∧ cause = .retire)) →
    ∃ t : State, exec (.arm (lineNoByte i :: 0x02 :: more)) s = .next t
      ∧ t.engine = { s.engine with
          lines := s.engine.lines.set i
            { state := state, active := active, head := 0, tail := 0, fill := 0, walkA := 0, walkB := 0,
              suspect := false, generation := (s.line i).generation + 1, lastOutcome := .appliedHard },
          urgentA := urgencyOf t.engine.lines .A, urgentB := urgencyOf t.engine.lines .B }
      ∧ s.HeldEnded t (Entry.heldOn i)
      ∧ t.handed = s.handed ++ s.abandonedBy .commitUnit cause (Entry.heldOn i) .A
          ++ s.abandonedBy .commitUnit cause (Entry.heldOn i) .B
      ∧ t.link = s.linkAfter (0x13 :: lineNoByte i :: 0x02 :: more) { status := .ok, bytes := [] }
      ∧ t = { s with
          portA := t.portA, portB := t.portB, engine := t.engine, handed := t.handed, link := t.link }

/-- R120, R156: the checks of ARM stand in a fixed order, the first that fails gives the status, and an ARM they refuse
changes nothing but the held result. (The frame that the link keeps afterwards is the model's choice, log entry 4.) -/
def Obligations.ArmChecksStandInTheirOrder : Prop :=
  ∀ (s : State) (i : LineNo) (code : Byte) (more : List Byte), s.porstnLow = false → more.length ≤ 37 →
    let replies := fun (status : LinkStatus) (bytes : List Byte) =>
      exec (.arm (lineNoByte i :: code :: more)) s = .next { s with
        link := s.linkAfter (0x13 :: lineNoByte i :: code :: more) { status := status, bytes := bytes } }
    (s.pendingOf i ≠ none → replies .busy [])
    ∧ (s.pendingOf i = none →
      ((2 < code.toNat ∨ (code = 0x01 ∧ (s.line i).isLive = false)) → replies .badtrigger [])
      ∧ ((code = 0x00 ∨ code = 0x02) → (s.stagedOf i).kind = 0 → (s.line i).isLive = false → replies .notlive [])
      ∧ (code.toNat ≤ 2 → (code = 0x01 ∨ (s.stagedOf i).kind = 0 → (s.line i).isLive = true) →
        ∀ fault : ImageFault, imageFault (s.stagedOf i) = some fault →
          replies .invalid (match fault with
            | .field offset => [0x01, BitVec.ofNat 8 offset]
            | .geometry => [0x02, 0x00]
            | .selfOverlap => [0x03, 0x00])))

/-- R120 to R122: the image checks pass for kind NONE, and else where every field lies in its range, the geometry and the
spans fit and the window and the ring have no byte in common; the first field out of range gives FIELD with its offset,
and GEOMETRY comes before SELF_OVERLAP. -/
def Obligations.ImageChecksAreTheFieldRanges : Prop :=
  ∀ d : Image,
    (∀ offset : Nat, imageFault d = some (.field offset) ↔
      d.fieldOut offset ∧ ∀ q : Nat, q < offset → ¬d.fieldOut q)
    ∧ (imageFault d = some .geometry ↔ (∀ q : Nat, ¬d.fieldOut q) ∧ d.kind ≠ 0 ∧ ¬d.Fits)
    ∧ (imageFault d = some .selfOverlap ↔ (∀ q : Nat, ¬d.fieldOut q) ∧ d.kind ≠ 0 ∧ d.Fits ∧ d.OverlapsItself)
    ∧ (imageFault d = none ↔ (∀ q : Nat, ¬d.fieldOut q) ∧ (d.kind ≠ 0 → d.Fits ∧ ¬d.OverlapsItself))

/-- R125, R156: DISARM removes a pending commit and sets the outcome CANCELLED, replying OK; with none pending it
replies NOTARMED and changes nothing else. (The frame that the link keeps afterwards is the model's choice, log entry
4.) -/
def Obligations.DisarmCancelsThePendingCommit : Prop :=
  ∀ (s : State) (i : LineNo) (more : List Byte), s.porstnLow = false → more.length ≤ 38 →
    (s.pendingOf i ≠ none →
      exec (.disarm (lineNoByte i :: more)) s = .next { s with
        engine := { s.engine with lines := s.engine.lines.set i { s.line i with lastOutcome := .cancelled } }
        commit := { s.commit with pendingCommit := s.commit.pendingCommit.set i none }
        link := s.linkAfter (0x14 :: lineNoByte i :: more) { status := .ok, bytes := [] } })
    ∧ (s.pendingOf i = none →
      exec (.disarm (lineNoByte i :: more)) s = .next { s with
        link := s.linkAfter (0x14 :: lineNoByte i :: more) { status := .notarmed, bytes := [] } })

/-- R119, R155: STAGE writes its data bytes at its offset into the staged image of its line and nothing else; while a
commit is pending it is BUSY, and with a byte range outside the image INVALID, and then it writes nothing. (The frame
that the link keeps afterwards is the model's choice, log entry 4.) -/
def Obligations.StageWritesItsBytesUnlessPending : Prop :=
  ∀ (s : State) (i : LineNo) (offset count : Byte) (data : List Byte),
    s.porstnLow = false → data.length = count.toNat → count.toNat ≤ 36 →
    let frame := lineNoByte i :: offset :: count :: data
    (s.pendingOf i ≠ none →
      exec (.stage frame) s = .next { s with
        link := s.linkAfter (0x10 :: frame) { status := .busy, bytes := [] } })
    ∧ (s.pendingOf i = none → (count.toNat = 0 ∨ 32 < offset.toNat + count.toNat) →
      exec (.stage frame) s = .next { s with
        link := s.linkAfter (0x10 :: frame) { status := .invalid, bytes := [] } })
    ∧ (s.pendingOf i = none → 1 ≤ count.toNat → offset.toNat + count.toNat ≤ 32 →
      ∃ t : State, exec (.stage frame) s = .next t
        ∧ (∀ k : Nat, (t.stagedOf i).toList[k]? =
          if offset.toNat ≤ k ∧ k < offset.toNat + count.toNat then data[k - offset.toNat]?
          else (s.stagedOf i).toList[k]?)
        ∧ (∀ j : LineNo, j ≠ i → t.stagedOf j = s.stagedOf j)
        ∧ t = { s with
            commit := { s.commit with staged := t.commit.staged }
            link := s.linkAfter (0x10 :: frame) { status := .ok, bytes := [] } })

/-! ## The management link -/

/-- R155: IDENTIFY, READ_STAGED and READ_ACTIVE reply OK with the identification bytes, the line's 32 staged bytes and
the line's 32 active bytes, and change nothing else. (The frame that the link keeps afterwards is the model's choice,
log entry 4.) -/
def Obligations.ReadingCommandsReplyAndChangeNothing : Prop :=
  ∀ (s : State) (i : LineNo) (more : List Byte), s.porstnLow = false → more.length ≤ 38 →
    exec (.identify (0xFF :: more)) s = .next { s with
      link := s.linkAfter (0x01 :: 0xFF :: more) { status := .ok, bytes := [0x43, 0x16, 0x04, 0x02] } }
    ∧ exec (.readStaged (lineNoByte i :: more)) s = .next { s with
      link := s.linkAfter (0x11 :: lineNoByte i :: more) { status := .ok, bytes := (s.stagedOf i).bytes.toList } }
    ∧ exec (.readActive (lineNoByte i :: more)) s = .next { s with
      link := s.linkAfter (0x12 :: lineNoByte i :: more) { status := .ok, bytes := (s.line i).active.bytes.toList } }

/-- R102, R158, R162: QUERY_LINE replies OK with 16 bytes that report the line's flags with each port's parked
indicator, the pending trigger, the generation, the last commit outcome and the cursors, and changes nothing else. (The
frame that the link keeps afterwards is the model's choice, log entry 4.) -/
def Obligations.QueryLineReportsTheRecord : Prop :=
  ∀ (s : State) (i : LineNo) (more : List Byte) (a b : Nat), s.porstnLow = false → more.length ≤ 38 →
    s.Indicates .A i a → s.Indicates .B i b →
    let l := s.line i
    ∃ bytes : List Byte, exec (.queryLine (lineNoByte i :: more)) s = .next { s with
        link := s.linkAfter (0x20 :: lineNoByte i :: more) { status := .ok, bytes := bytes } }
      ∧ bytes.length = 16
      ∧ byteAt bytes 0 = (if l.isLive = true then 1 else 0) + (if l.suspect = true then 2 else 0) + 4 * a + 16 * b
      ∧ byteAt bytes 1 = (match s.pendingOf i with
        | none => 0
        | some .mark => 1
        | some .wrap => 2)
      ∧ byteAt bytes 2 = l.generation.toNat
      ∧ [byteAt bytes 3, byteAt bytes 4, byteAt bytes 5] = (match l.lastOutcome with
        | .noneYet => [0, 0, 255]
        | .appliedSoft => [1, 0, 255]
        | .appliedHard => [2, 0, 255]
        | .refused .windowClash other => [3, 4, other.val]
        | .refused .ringClash other => [3, 5, other.val]
        | .cancelled => [4, 0, 255])
      ∧ byteAt bytes 6 + 256 * byteAt bytes 7 = l.head % 65536
      ∧ byteAt bytes 8 + 256 * byteAt bytes 9 = l.tail % 65536
      ∧ byteAt bytes 10 + 256 * byteAt bytes 11 = l.fill % 65536
      ∧ byteAt bytes 12 + 256 * byteAt bytes 13 = l.walkA % 65536
      ∧ byteAt bytes 14 + 256 * byteAt bytes 15 = l.walkB % 65536

/-- R158, R163: QUERY_PART replies OK with 9 bytes that report the mode, the mark count, the number of records, the
marker, the enables, both urgencies and the memory-queue occupancy, and changes nothing else. (The frame that the link
keeps afterwards is the model's choice, log entry 4.) -/
def Obligations.QueryPartReportsThePart : Prop :=
  ∀ (s : State) (more : List Byte), s.porstnLow = false → more.length ≤ 38 →
    s.incidents.records.length ≤ 32 → s.memQueue.length ≤ 8 →
    ∃ bytes : List Byte, exec (.queryPart (0xFF :: more)) s = .next { s with
        link := s.linkAfter (0x21 :: 0xFF :: more) { status := .ok, bytes := bytes } }
      ∧ bytes.map (fun x => x.toNat) =
        [if s.engine.mode = .engaged then 1 else 0, s.commit.markCount.toNat % 256, s.commit.markCount.toNat / 256,
          s.incidents.records.length, if s.incidents.overflow = true then 1 else 0, s.incidents.enables.toNat,
          if s.engine.urgentA = true then 1 else 0, if s.engine.urgentB = true then 1 else 0, s.memQueue.length]

/-- R27, R43, R44, R100: ENGAGE sets the mode ENGAGED and nothing else; DISENGAGE sets it TRANSPARENT and abandons
every held entry of either port with cause DISENGAGE, Port A's incident first; no line changes. (The frame that the
link keeps afterwards is the model's choice, log entry 4.) -/
def Obligations.EngageAndDisengageSetTheMode : Prop :=
  ∀ (s : State) (more : List Byte), s.porstnLow = false → more.length ≤ 38 →
    exec (.engage (0xFF :: more)) s = .next { s with
      engine := { s.engine with mode := .engaged }
      link := s.linkAfter (0x30 :: 0xFF :: more) { status := .ok, bytes := [] } }
    ∧ ∃ t : State, exec (.disengage (0xFF :: more)) s = .next t
      ∧ s.HeldEnded t (fun _ => true)
      ∧ t.handed = s.handed ++ s.abandonedBy .link .disengage (fun _ => true) .A
          ++ s.abandonedBy .link .disengage (fun _ => true) .B
      ∧ t = { s with
          portA := t.portA
          portB := t.portB
          engine := { s.engine with mode := .transparent }
          handed := t.handed
          link := s.linkAfter (0x31 :: 0xFF :: more) { status := .ok, bytes := [] } }

/-- R23, R99, R157: FLUSH of a LIVE line sets its cursors and walk cursors to 0, clears suspect, abandons its held
entries with cause FLUSH, Port A's incident first, recomputes urgency, and keeps the descriptor, the generation, the
outcome, the pending commit and the staged image; FLUSH of an IDLE line replies NOTLIVE and changes nothing else. (The
frame that the link keeps afterwards is the model's choice, log entry 4.) -/
def Obligations.FlushEmptiesALiveLine : Prop :=
  ∀ (s : State) (i : LineNo) (more : List Byte), s.porstnLow = false → more.length ≤ 38 →
    ((s.line i).isLive = true →
      ∃ t : State, exec (.flush (lineNoByte i :: more)) s = .next t
        ∧ t.engine = { s.engine with
            lines := s.engine.lines.set i
              { s.line i with head := 0, tail := 0, fill := 0, walkA := 0, walkB := 0, suspect := false },
            urgentA := urgencyOf t.engine.lines .A, urgentB := urgencyOf t.engine.lines .B }
        ∧ s.HeldEnded t (Entry.heldOn i)
        ∧ t.handed = s.handed ++ s.abandonedBy .link .flush (Entry.heldOn i) .A
            ++ s.abandonedBy .link .flush (Entry.heldOn i) .B
        ∧ t.link = s.linkAfter (0x16 :: lineNoByte i :: more) { status := .ok, bytes := [] }
        ∧ t = { s with
            portA := t.portA, portB := t.portB, engine := t.engine, handed := t.handed, link := t.link })
    ∧ ((s.line i).isLive = false →
      exec (.flush (lineNoByte i :: more)) s = .next { s with
        link := s.linkAfter (0x16 :: lineNoByte i :: more) { status := .notlive, bytes := [] } })

/-- R24, R101, R139, R148, R157: CLEAR makes every line IDLE with empty cursors and generation kept, cancels every
pending commit, answers every held entry ERROR without an incident, empties the incident queue, clears the marker and
releases ALERT; the staged images, the mark count, the mode, the arbiter, the enables, the sequence counter, the memory
queue and the incidents on their way are kept. (The frame that the link keeps afterwards is the model's choice, log
entry 4.) (That incidents on their way wait in a list which CLEAR keeps is the model's choice, log entry 5.) -/
def Obligations.ClearMakesEveryLineIdle : Prop :=
  ∀ (s : State) (more : List Byte), s.porstnLow = false → more.length ≤ 38 →
    ∃ t : State, exec (.clear (0xFF :: more)) s = .next t
      ∧ (∀ i : LineNo, t.line i =
          { state := .idle, active := zeroImage, head := 0, tail := 0, fill := 0, walkA := 0, walkB := 0,
            suspect := false, generation := (s.line i).generation,
            lastOutcome := if s.pendingOf i = none then (s.line i).lastOutcome else .cancelled }
        ∧ t.pendingOf i = none)
      ∧ s.HeldEnded t (fun _ => true)
      ∧ t.engine = { s.engine with lines := t.engine.lines, urgentA := false, urgentB := false }
      ∧ t.commit = { s.commit with pendingCommit := t.commit.pendingCommit }
      ∧ t.incidents = { s.incidents with records := [], overflow := false, alertLow := false }
      ∧ t.link = s.linkAfter (0x50 :: 0xFF :: more) { status := .ok, bytes := [] }
      ∧ t = { s with
          portA := t.portA, portB := t.portB, engine := t.engine, commit := t.commit, incidents := t.incidents,
          link := t.link }

/-- R150 to R153: an empty frame keeps the held result; a frame longer than 40 bytes or with an unknown code in byte 0
ends as BADFRAME with no result bytes; RESULT of 2 to 40 bytes keeps the held result and shifts it out, and RESULT of
one byte ends as BADFRAME; while PORSTN is low no frame does anything. No block but the link changes. (The frame that
the link keeps afterwards is the model's choice, log entry 4.) -/
def Obligations.FramesThatReachNoBlock : Prop :=
  ∀ s : State,
    (s.porstnLow = true → ∀ bytes : List Byte,
      exec (.badframe bytes) s = .next s ∧ ∀ c : LinkCode, exec (LinkCode.command bytes c) s = .next s)
    ∧ (s.porstnLow = false →
      exec (.badframe []) s = .next { s with link := s.linkAfter [] s.link.held }
      ∧ (∀ bytes : List Byte, 40 < bytes.length →
        exec (.badframe bytes) s = .next { s with
          link := s.linkAfter bytes { status := .badframe, bytes := [] } })
      ∧ (∀ (code : Byte) (rest : List Byte), (∀ c : LinkCode, c.toByte ≠ code) →
        exec (.badframe (code :: rest)) s = .next { s with
          link := s.linkAfter (code :: rest) { status := .badframe, bytes := [] } })
      ∧ (∀ rest : List Byte, 1 ≤ rest.length → rest.length ≤ 39 →
        exec (.result rest) s = .next { s with link := s.linkAfter (0x00 :: rest) s.link.held })
      ∧ exec (.result []) s = .next { s with link := s.linkAfter [0x00] { status := .badframe, bytes := [] } })

/-- R151, R160: a frame of any command but RESULT that is longer than 40 bytes, below its fixed length, or for STAGE of
another length than 4 + count, ends as BADFRAME; of an acting length, one whose line byte is not valid for the command
ends as BADLINE. Neither reaches a block other than the link. (The frame that the link keeps afterwards is the model's
choice, log entry 4.) -/
def Obligations.FramesAreJudgedByLengthThenLineByte : Prop :=
  ∀ (c : LinkCode) (rest : List Byte) (s : State), s.porstnLow = false → c ≠ .result →
    let endsAs := fun (status : LinkStatus) =>
      exec (LinkCode.command rest c) s = .next { s with
        link := s.linkAfter (c.toByte :: rest) { status := status, bytes := [] } }
    let n := rest.length + 1
    let long := match c with
      | .stage => 4 ≤ n ∧ n = 4 + byteAt rest 2
      | .arm => 3 ≤ n
      | .setEnables => 3 ≤ n
      | _ => 2 ≤ n
    (40 < n ∨ ¬long → endsAs .badframe)
    ∧ (n ≤ 40 → long →
      (if LinkCode.namesLine c = true then 16 ≤ byteAt rest 0 else byteAt rest 0 ≠ 255) → endsAs .badline)

/-- R150, R160: every command's code is read back as that command and no other byte is a code; the bits of a frame, most
significant first in each byte, are read back as its bytes, the bits of an incomplete last byte discarded. -/
def Obligations.CodesAndFrameBitsAreReadBack : Prop :=
  (∀ (c : LinkCode) (b : Byte), LinkCode.ofByte b = some c ↔ b = c.toByte)
  ∧ ∀ (bytes : List Byte) (extra : List Bool), extra.length < 8 →
    frameOfBits (bitsOfFrame bytes ++ extra) = bytes

/-! ## The incident unit -/

/-- R146, R147, R164: TAKE_INCIDENT removes the oldest record and replies OK with its 12-byte image; ALERT stays low
while records or the marker remain; the counter, the marker and the enables are kept. On an empty queue it replies
EMPTY and changes nothing else. (The frame that the link keeps afterwards is the model's choice, log entry 4.) -/
def Obligations.TakeIncidentReturnsTheOldestRecord : Prop :=
  ∀ (s : State) (more : List Byte), s.porstnLow = false → more.length ≤ 38 →
    (s.incidents.records = [] →
      exec (.takeIncident (0xFF :: more)) s = .next { s with
        link := s.linkAfter (0x40 :: 0xFF :: more) { status := .empty, bytes := [] } })
    ∧ ∀ (r : Record) (left : List Record), s.incidents.records = r :: left →
      ∃ (image : List Byte) (alert : Bool), exec (.takeIncident (0xFF :: more)) s = .next { s with
          incidents := { s.incidents with records := left, alertLow := alert }
          link := s.linkAfter (0x40 :: 0xFF :: more) { status := .ok, bytes := image } }
        ∧ (alert = true ↔ left ≠ [] ∨ s.incidents.overflow = true)
        ∧ image.length = 12
        ∧ byteAt image 0 + 256 * byteAt image 1 = r.sequence.toNat
        ∧ byteAt image 2 = kindNumber r.incident.detail + 16 * (match r.incident.port with
          | some .A => 0
          | some .B => 1
          | none => 3)
        ∧ byteAt image 3 = (match r.incident.line with
          | some i => i.val
          | none => 255)
        ∧ byteAt image 4 = r.occurrences % 256
        ∧ byteAt image 5 + 256 * byteAt image 6 + 65536 * byteAt image 7 + 16777216 * byteAt image 8 =
          (match r.incident.addr with
          | some addr => addr.toNat
          | none => 0)
        ∧ ((∀ k fill : Nat, r.incident.detail = .underrun k fill → k < 4096 ∧ fill < 4096) →
          byteAt image 9 + 256 * byteAt image 10 + 65536 * byteAt image 11 = detailNumber r.incident.detail)

/-- R142, R145, R147, R159: SET_ENABLES replaces all eight enables with its argument byte; CLEAR_OVERFLOW clears the
marker and leaves ALERT low exactly while records remain; both reply OK and change nothing else. (The frame that the
link keeps afterwards is the model's choice, log entry 4.) -/
def Obligations.EnablesAndOverflowCommandsAct : Prop :=
  ∀ (s : State) (enables : Byte) (more : List Byte), s.porstnLow = false →
    (more.length ≤ 37 →
      exec (.setEnables (0xFF :: enables :: more)) s = .next { s with
        incidents := { s.incidents with enables := enables }
        link := s.linkAfter (0x41 :: 0xFF :: enables :: more) { status := .ok, bytes := [] } })
    ∧ (more.length ≤ 38 →
      exec (.clearOverflow (0xFF :: more)) s = .next { s with
        incidents := { s.incidents with overflow := false, alertLow := decide (s.incidents.records ≠ []) }
        link := s.linkAfter (0x42 :: 0xFF :: more) { status := .ok, bytes := [] } })

/-- R142 to R145, R147: the oldest incident on its way from a source is dealt with whole. A disabled kind changes nothing
in the unit; else the newest record takes it where kind, line and port match and its repeat is below 255; else it is
appended with the counter's number where fewer than 32 records wait, and the counter advances; else it is dropped and the
marker set. Where the source has handed nothing, nothing happens. (That incidents wait in `handed` is the model's choice,
log entry 5.) -/
def Obligations.IncidentArrivalCoalescesAppendsOrDrops : Prop :=
  ∀ (s : State) (source : Source),
    ((∀ y ∈ s.handed, y.source ≠ source) → exec (.incidentArrival source) s = .next s)
    ∧ ∀ (before after : List Handed) (x : Incident),
      s.handed = before ++ { source := source, incident := x } :: after → (∀ y ∈ before, y.source ≠ source) →
      let u := s.incidents
      let becomes := fun v : IncidentUnit =>
        exec (.incidentArrival source) s = .next { s with handed := before ++ after, incidents := v }
      let enabled := u.enables.getLsbD (kindNumber x.detail)
      (enabled = false → becomes u)
      ∧ (enabled = true →
        (∀ (older : List Record) (r : Record), u.records = older ++ [r] → r.Matches x →
          becomes { u with records := older ++ [{ r with occurrences := r.occurrences + 1 }] })
        ∧ ((∀ (older : List Record) (r : Record), u.records = older ++ [r] → ¬r.Matches x) →
          (u.records.length < 32 →
            becomes { u with
              records := u.records ++ [{ sequence := u.counter, incident := x, occurrences := 1 }]
              counter := u.counter + 1
              alertLow := true })
          ∧ (32 ≤ u.records.length → becomes { u with overflow := true, alertLow := true })))

/-! ## The resets -/

/-- R25, R27, R89, R106, R111, R112, R116, R137, R149, R153: power-on reset leaves every block in its initial state,
whatever it held; the releases of PORSTN and SYSRSTN change nothing but the level of their input. (That the commands
which wait and the level of SYSRSTN stay is the model's choice, log entry 3.) (That incidents on their way are dropped
is the model's reading, log entry 5.) -/
def Obligations.PowerOnResetLeavesTheInitialState : Prop :=
  ∀ s : State,
    (∃ t : State, exec .powerOnReset s = .next t
      ∧ (∀ i : LineNo, t.line i =
          { state := .idle, active := zeroImage, head := 0, tail := 0, fill := 0, walkA := 0, walkB := 0,
            suspect := false, generation := 0, lastOutcome := .noneYet }
        ∧ (t.stagedOf i).bytes.toList = List.replicate 32 0x00 ∧ t.pendingOf i = none)
      ∧ t.engine.mode = .transparent ∧ t.engine.lastChosen = .B
      ∧ t.engine.urgentA = false ∧ t.engine.urgentB = false ∧ t.commit.markCount = 0
      ∧ (∀ p : Port, (t.intake p).openList = [] ∧ (t.intake p).deadline = none) ∧ t.memQueue = [] ∧ t.handed = []
      ∧ t.incidents = { records := [], overflow := false, enables := 0xFF, counter := 0, alertLow := false }
      ∧ t.link.held = { status := .ok, bytes := [] } ∧ t.tickCount = 0
      ∧ t.porstnLow = true ∧ t.sysrstnLow = s.sysrstnLow ∧ t.pending = s.pending)
    ∧ exec .powerOnResetRelease s = .next { s with porstnLow := false }
    ∧ exec .systemResetRelease s = .next { s with sysrstnLow := false }

/-- R26, R106, R111, R112, R116, R138, R149, R153: a system reset, made once when SYSRSTN is asserted, empties every
line and keeps its descriptor, state and generation, cancels every pending commit, empties the open lists, sets the
last-chosen port to B, makes every origin absent, and keeps the staged images, the mark count, the mode, the incident
unit, the link and the tick count. (That an input which is low already is not asserted again is the model's reading,
log entry 12.) (That incidents on their way stay is the model's reading, log entry 5.) -/
def Obligations.SystemResetEmptiesEveryLine : Prop :=
  ∀ s : State,
    (s.sysrstnLow = true → exec .systemReset s = .next s)
    ∧ (s.sysrstnLow = false →
      ∃ t : State, exec .systemReset s = .next t
        ∧ (∀ i : LineNo, t.line i =
            { s.line i with
              head := 0, tail := 0, fill := 0, walkA := 0, walkB := 0, suspect := false,
              lastOutcome := if s.pendingOf i = none then (s.line i).lastOutcome else .cancelled }
          ∧ t.pendingOf i = none)
        ∧ (∀ p : Port, t.intake p = { s.intake p with openList := [], deadline := none })
        ∧ t.engine = { s.engine with
            lines := t.engine.lines, lastChosen := .B, urgentA := urgencyOf t.engine.lines .A,
            urgentB := urgencyOf t.engine.lines .B }
        ∧ t.commit = { s.commit with pendingCommit := t.commit.pendingCommit }
        ∧ t.memQueue = s.memQueue.map (fun x => { x with origin := none })
        ∧ t = { s with
            portA := t.portA, portB := t.portB, engine := t.engine, commit := t.commit, memQueue := t.memQueue,
            sysrstnLow := true })

/-! ## Invariants -/

/-- The state after reset meets the part's invariant, and its open lists, deadlines and memory queue theirs. -/
def Obligations.ResetMeetsTheInvariants : Prop := State.reset.Inv ∧ State.reset.QueuesOk

/-- R1, R7, R8, R10, R18, R89, R103, R108, R112, R120, R143, R147: from every state that meets the part's invariant, a step
leads to a state that meets it: the line records, the disjoint spans of LIVE lines, the images of pending commits, the
urgencies, the parked entries, the queues, the incident unit and the held result are as the manual says. -/
def Obligations.StepKeepsTheInvariant : Prop :=
  ∀ s t : State, s.Inv → step s = .next t → t.Inv

/-- R88, R89, R90, R103, R104, R106, R108, R113: from every state whose open lists, deadlines and memory queue are in order,
whatever its lines hold, a step leads to such a state: at most 4 entries in the order of their takes, at most one of them
held, a deadline exactly while one is held, at most 8 transactions, and one transaction for each ISSUED entry, in arrival
order. -/
def Obligations.StepKeepsTheQueuesInOrder : Prop :=
  ∀ s t : State, s.QueuesOk → step s = .next t → t.QueuesOk
end

