-- ==== Sys2Proof/Laws/State.lean ====
section
/-! SUPPORT. What each update of the state leaves unchanged, one lemma per field per update, and what the accessors read
after an update. -/

namespace Sys2Proof.Machine

/-! ### `State.setLine` -/

@[simp] theorem State.setLine_portA (s : State) (i : LineNo) (l : Line) : (s.setLine i l).portA = s.portA := rfl
@[simp] theorem State.setLine_portB (s : State) (i : LineNo) (l : Line) : (s.setLine i l).portB = s.portB := rfl
@[simp] theorem State.setLine_commit (s : State) (i : LineNo) (l : Line) : (s.setLine i l).commit = s.commit := rfl
@[simp] theorem State.setLine_memQueue (s : State) (i : LineNo) (l : Line) : (s.setLine i l).memQueue = s.memQueue := rfl
@[simp] theorem State.setLine_incidents (s : State) (i : LineNo) (l : Line) : (s.setLine i l).incidents = s.incidents := rfl
@[simp] theorem State.setLine_handed (s : State) (i : LineNo) (l : Line) : (s.setLine i l).handed = s.handed := rfl
@[simp] theorem State.setLine_link (s : State) (i : LineNo) (l : Line) : (s.setLine i l).link = s.link := rfl
@[simp] theorem State.setLine_tickCount (s : State) (i : LineNo) (l : Line) : (s.setLine i l).tickCount = s.tickCount := rfl
@[simp] theorem State.setLine_porstnLow (s : State) (i : LineNo) (l : Line) : (s.setLine i l).porstnLow = s.porstnLow := rfl
@[simp] theorem State.setLine_sysrstnLow (s : State) (i : LineNo) (l : Line) : (s.setLine i l).sysrstnLow = s.sysrstnLow := rfl
@[simp] theorem State.setLine_pending (s : State) (i : LineNo) (l : Line) : (s.setLine i l).pending = s.pending := rfl
@[simp] theorem State.setLine_stagedOf (s : State) (i : LineNo) (l : Line) (j : LineNo) : (s.setLine i l).stagedOf j = s.stagedOf j := by
  simp [State.stagedOf]
@[simp] theorem State.setLine_pendingOf (s : State) (i : LineNo) (l : Line) (j : LineNo) : (s.setLine i l).pendingOf j = s.pendingOf j := by
  simp [State.pendingOf]
@[simp] theorem State.setLine_intake (s : State) (i : LineNo) (l : Line) (q : Port) : (s.setLine i l).intake q = s.intake q := by
  cases q <;> rfl
@[simp] theorem State.setLine_inReset (s : State) (i : LineNo) (l : Line) : (s.setLine i l).inReset = s.inReset := by simp [State.inReset]

/-! ### `State.setStaged` -/

@[simp] theorem State.setStaged_portA (s : State) (i : LineNo) (d : Image) : (s.setStaged i d).portA = s.portA := rfl
@[simp] theorem State.setStaged_portB (s : State) (i : LineNo) (d : Image) : (s.setStaged i d).portB = s.portB := rfl
@[simp] theorem State.setStaged_engine (s : State) (i : LineNo) (d : Image) : (s.setStaged i d).engine = s.engine := rfl
@[simp] theorem State.setStaged_memQueue (s : State) (i : LineNo) (d : Image) : (s.setStaged i d).memQueue = s.memQueue := rfl
@[simp] theorem State.setStaged_incidents (s : State) (i : LineNo) (d : Image) : (s.setStaged i d).incidents = s.incidents := rfl
@[simp] theorem State.setStaged_handed (s : State) (i : LineNo) (d : Image) : (s.setStaged i d).handed = s.handed := rfl
@[simp] theorem State.setStaged_link (s : State) (i : LineNo) (d : Image) : (s.setStaged i d).link = s.link := rfl
@[simp] theorem State.setStaged_tickCount (s : State) (i : LineNo) (d : Image) : (s.setStaged i d).tickCount = s.tickCount := rfl
@[simp] theorem State.setStaged_porstnLow (s : State) (i : LineNo) (d : Image) : (s.setStaged i d).porstnLow = s.porstnLow := rfl
@[simp] theorem State.setStaged_sysrstnLow (s : State) (i : LineNo) (d : Image) : (s.setStaged i d).sysrstnLow = s.sysrstnLow := rfl
@[simp] theorem State.setStaged_pending (s : State) (i : LineNo) (d : Image) : (s.setStaged i d).pending = s.pending := rfl
@[simp] theorem State.setStaged_line (s : State) (i : LineNo) (d : Image) (j : LineNo) : (s.setStaged i d).line j = s.line j := by simp [State.line]
@[simp] theorem State.setStaged_urgent (s : State) (i : LineNo) (d : Image) (q : Port) : (s.setStaged i d).urgent q = s.urgent q := by
  cases q <;> simp [State.urgent]
@[simp] theorem State.setStaged_intake (s : State) (i : LineNo) (d : Image) (q : Port) : (s.setStaged i d).intake q = s.intake q := by
  cases q <;> rfl
@[simp] theorem State.setStaged_inReset (s : State) (i : LineNo) (d : Image) : (s.setStaged i d).inReset = s.inReset := by simp [State.inReset]

/-! ### `State.setPending` -/

@[simp] theorem State.setPending_portA (s : State) (i : LineNo) (t : Option Trigger) : (s.setPending i t).portA = s.portA := rfl
@[simp] theorem State.setPending_portB (s : State) (i : LineNo) (t : Option Trigger) : (s.setPending i t).portB = s.portB := rfl
@[simp] theorem State.setPending_engine (s : State) (i : LineNo) (t : Option Trigger) : (s.setPending i t).engine = s.engine := rfl
@[simp] theorem State.setPending_memQueue (s : State) (i : LineNo) (t : Option Trigger) : (s.setPending i t).memQueue = s.memQueue := rfl
@[simp] theorem State.setPending_incidents (s : State) (i : LineNo) (t : Option Trigger) : (s.setPending i t).incidents = s.incidents := rfl
@[simp] theorem State.setPending_handed (s : State) (i : LineNo) (t : Option Trigger) : (s.setPending i t).handed = s.handed := rfl
@[simp] theorem State.setPending_link (s : State) (i : LineNo) (t : Option Trigger) : (s.setPending i t).link = s.link := rfl
@[simp] theorem State.setPending_tickCount (s : State) (i : LineNo) (t : Option Trigger) : (s.setPending i t).tickCount = s.tickCount := rfl
@[simp] theorem State.setPending_porstnLow (s : State) (i : LineNo) (t : Option Trigger) : (s.setPending i t).porstnLow = s.porstnLow := rfl
@[simp] theorem State.setPending_sysrstnLow (s : State) (i : LineNo) (t : Option Trigger) : (s.setPending i t).sysrstnLow = s.sysrstnLow := rfl
@[simp] theorem State.setPending_pending (s : State) (i : LineNo) (t : Option Trigger) : (s.setPending i t).pending = s.pending := rfl
@[simp] theorem State.setPending_line (s : State) (i : LineNo) (t : Option Trigger) (j : LineNo) : (s.setPending i t).line j = s.line j := by simp [State.line]
@[simp] theorem State.setPending_urgent (s : State) (i : LineNo) (t : Option Trigger) (q : Port) : (s.setPending i t).urgent q = s.urgent q := by
  cases q <;> simp [State.urgent]
@[simp] theorem State.setPending_intake (s : State) (i : LineNo) (t : Option Trigger) (q : Port) : (s.setPending i t).intake q = s.intake q := by
  cases q <;> rfl
@[simp] theorem State.setPending_inReset (s : State) (i : LineNo) (t : Option Trigger) : (s.setPending i t).inReset = s.inReset := by simp [State.inReset]

/-! ### `recomputeUrgency` -/

@[simp] theorem recomputeUrgency_portA (s : State) : (recomputeUrgency s).portA = s.portA := rfl
@[simp] theorem recomputeUrgency_portB (s : State) : (recomputeUrgency s).portB = s.portB := rfl
@[simp] theorem recomputeUrgency_commit (s : State) : (recomputeUrgency s).commit = s.commit := rfl
@[simp] theorem recomputeUrgency_memQueue (s : State) : (recomputeUrgency s).memQueue = s.memQueue := rfl
@[simp] theorem recomputeUrgency_incidents (s : State) : (recomputeUrgency s).incidents = s.incidents := rfl
@[simp] theorem recomputeUrgency_handed (s : State) : (recomputeUrgency s).handed = s.handed := rfl
@[simp] theorem recomputeUrgency_link (s : State) : (recomputeUrgency s).link = s.link := rfl
@[simp] theorem recomputeUrgency_tickCount (s : State) : (recomputeUrgency s).tickCount = s.tickCount := rfl
@[simp] theorem recomputeUrgency_porstnLow (s : State) : (recomputeUrgency s).porstnLow = s.porstnLow := rfl
@[simp] theorem recomputeUrgency_sysrstnLow (s : State) : (recomputeUrgency s).sysrstnLow = s.sysrstnLow := rfl
@[simp] theorem recomputeUrgency_pending (s : State) : (recomputeUrgency s).pending = s.pending := rfl
@[simp] theorem recomputeUrgency_stagedOf (s : State) (j : LineNo) : (recomputeUrgency s).stagedOf j = s.stagedOf j := by
  simp [State.stagedOf]
@[simp] theorem recomputeUrgency_pendingOf (s : State) (j : LineNo) : (recomputeUrgency s).pendingOf j = s.pendingOf j := by
  simp [State.pendingOf]
@[simp] theorem recomputeUrgency_intake (s : State) (q : Port) : (recomputeUrgency s).intake q = s.intake q := by
  cases q <;> rfl
@[simp] theorem recomputeUrgency_inReset (s : State) : (recomputeUrgency s).inReset = s.inReset := by simp [State.inReset]

/-! ### `State.setIntake` -/

@[simp] theorem State.setIntake_engine (s : State) (p : Port) (it : Intake) : (s.setIntake p it).engine = s.engine := by cases p <;> rfl
@[simp] theorem State.setIntake_commit (s : State) (p : Port) (it : Intake) : (s.setIntake p it).commit = s.commit := by cases p <;> rfl
@[simp] theorem State.setIntake_memQueue (s : State) (p : Port) (it : Intake) : (s.setIntake p it).memQueue = s.memQueue := by cases p <;> rfl
@[simp] theorem State.setIntake_incidents (s : State) (p : Port) (it : Intake) : (s.setIntake p it).incidents = s.incidents := by cases p <;> rfl
@[simp] theorem State.setIntake_handed (s : State) (p : Port) (it : Intake) : (s.setIntake p it).handed = s.handed := by cases p <;> rfl
@[simp] theorem State.setIntake_link (s : State) (p : Port) (it : Intake) : (s.setIntake p it).link = s.link := by cases p <;> rfl
@[simp] theorem State.setIntake_tickCount (s : State) (p : Port) (it : Intake) : (s.setIntake p it).tickCount = s.tickCount := by cases p <;> rfl
@[simp] theorem State.setIntake_porstnLow (s : State) (p : Port) (it : Intake) : (s.setIntake p it).porstnLow = s.porstnLow := by cases p <;> rfl
@[simp] theorem State.setIntake_sysrstnLow (s : State) (p : Port) (it : Intake) : (s.setIntake p it).sysrstnLow = s.sysrstnLow := by cases p <;> rfl
@[simp] theorem State.setIntake_pending (s : State) (p : Port) (it : Intake) : (s.setIntake p it).pending = s.pending := by cases p <;> rfl
@[simp] theorem State.setIntake_line (s : State) (p : Port) (it : Intake) (j : LineNo) : (s.setIntake p it).line j = s.line j := by simp [State.line]
@[simp] theorem State.setIntake_urgent (s : State) (p : Port) (it : Intake) (q : Port) : (s.setIntake p it).urgent q = s.urgent q := by
  cases q <;> simp [State.urgent]
@[simp] theorem State.setIntake_stagedOf (s : State) (p : Port) (it : Intake) (j : LineNo) : (s.setIntake p it).stagedOf j = s.stagedOf j := by
  simp [State.stagedOf]
@[simp] theorem State.setIntake_pendingOf (s : State) (p : Port) (it : Intake) (j : LineNo) : (s.setIntake p it).pendingOf j = s.pendingOf j := by
  simp [State.pendingOf]
@[simp] theorem State.setIntake_inReset (s : State) (p : Port) (it : Intake) : (s.setIntake p it).inReset = s.inReset := by simp [State.inReset]

/-! ### `setDeadline` -/

@[simp] theorem setDeadline_engine (s : State) (p : Port) (d : Option (BitVec 32)) : (setDeadline p d s).engine = s.engine := by cases p <;> rfl
@[simp] theorem setDeadline_commit (s : State) (p : Port) (d : Option (BitVec 32)) : (setDeadline p d s).commit = s.commit := by cases p <;> rfl
@[simp] theorem setDeadline_memQueue (s : State) (p : Port) (d : Option (BitVec 32)) : (setDeadline p d s).memQueue = s.memQueue := by cases p <;> rfl
@[simp] theorem setDeadline_incidents (s : State) (p : Port) (d : Option (BitVec 32)) : (setDeadline p d s).incidents = s.incidents := by cases p <;> rfl
@[simp] theorem setDeadline_handed (s : State) (p : Port) (d : Option (BitVec 32)) : (setDeadline p d s).handed = s.handed := by cases p <;> rfl
@[simp] theorem setDeadline_link (s : State) (p : Port) (d : Option (BitVec 32)) : (setDeadline p d s).link = s.link := by cases p <;> rfl
@[simp] theorem setDeadline_tickCount (s : State) (p : Port) (d : Option (BitVec 32)) : (setDeadline p d s).tickCount = s.tickCount := by cases p <;> rfl
@[simp] theorem setDeadline_porstnLow (s : State) (p : Port) (d : Option (BitVec 32)) : (setDeadline p d s).porstnLow = s.porstnLow := by cases p <;> rfl
@[simp] theorem setDeadline_sysrstnLow (s : State) (p : Port) (d : Option (BitVec 32)) : (setDeadline p d s).sysrstnLow = s.sysrstnLow := by cases p <;> rfl
@[simp] theorem setDeadline_pending (s : State) (p : Port) (d : Option (BitVec 32)) : (setDeadline p d s).pending = s.pending := by cases p <;> rfl
@[simp] theorem setDeadline_line (s : State) (p : Port) (d : Option (BitVec 32)) (j : LineNo) : (setDeadline p d s).line j = s.line j := by simp [State.line]
@[simp] theorem setDeadline_urgent (s : State) (p : Port) (d : Option (BitVec 32)) (q : Port) : (setDeadline p d s).urgent q = s.urgent q := by
  cases q <;> simp [State.urgent]
@[simp] theorem setDeadline_stagedOf (s : State) (p : Port) (d : Option (BitVec 32)) (j : LineNo) : (setDeadline p d s).stagedOf j = s.stagedOf j := by
  simp [State.stagedOf]
@[simp] theorem setDeadline_pendingOf (s : State) (p : Port) (d : Option (BitVec 32)) (j : LineNo) : (setDeadline p d s).pendingOf j = s.pendingOf j := by
  simp [State.pendingOf]
@[simp] theorem setDeadline_inReset (s : State) (p : Port) (d : Option (BitVec 32)) : (setDeadline p d s).inReset = s.inReset := by simp [State.inReset]

/-! ### `updateEntry` -/

@[simp] theorem updateEntry_engine (s : State) (p : Port) (tag : Nat) (f : Entry → Entry) : (updateEntry p tag f s).engine = s.engine := by cases p <;> rfl
@[simp] theorem updateEntry_commit (s : State) (p : Port) (tag : Nat) (f : Entry → Entry) : (updateEntry p tag f s).commit = s.commit := by cases p <;> rfl
@[simp] theorem updateEntry_memQueue (s : State) (p : Port) (tag : Nat) (f : Entry → Entry) : (updateEntry p tag f s).memQueue = s.memQueue := by cases p <;> rfl
@[simp] theorem updateEntry_incidents (s : State) (p : Port) (tag : Nat) (f : Entry → Entry) : (updateEntry p tag f s).incidents = s.incidents := by cases p <;> rfl
@[simp] theorem updateEntry_handed (s : State) (p : Port) (tag : Nat) (f : Entry → Entry) : (updateEntry p tag f s).handed = s.handed := by cases p <;> rfl
@[simp] theorem updateEntry_link (s : State) (p : Port) (tag : Nat) (f : Entry → Entry) : (updateEntry p tag f s).link = s.link := by cases p <;> rfl
@[simp] theorem updateEntry_tickCount (s : State) (p : Port) (tag : Nat) (f : Entry → Entry) : (updateEntry p tag f s).tickCount = s.tickCount := by cases p <;> rfl
@[simp] theorem updateEntry_porstnLow (s : State) (p : Port) (tag : Nat) (f : Entry → Entry) : (updateEntry p tag f s).porstnLow = s.porstnLow := by cases p <;> rfl
@[simp] theorem updateEntry_sysrstnLow (s : State) (p : Port) (tag : Nat) (f : Entry → Entry) : (updateEntry p tag f s).sysrstnLow = s.sysrstnLow := by cases p <;> rfl
@[simp] theorem updateEntry_pending (s : State) (p : Port) (tag : Nat) (f : Entry → Entry) : (updateEntry p tag f s).pending = s.pending := by cases p <;> rfl
@[simp] theorem updateEntry_line (s : State) (p : Port) (tag : Nat) (f : Entry → Entry) (j : LineNo) : (updateEntry p tag f s).line j = s.line j := by simp [State.line]
@[simp] theorem updateEntry_urgent (s : State) (p : Port) (tag : Nat) (f : Entry → Entry) (q : Port) : (updateEntry p tag f s).urgent q = s.urgent q := by
  cases q <;> simp [State.urgent]
@[simp] theorem updateEntry_stagedOf (s : State) (p : Port) (tag : Nat) (f : Entry → Entry) (j : LineNo) : (updateEntry p tag f s).stagedOf j = s.stagedOf j := by
  simp [State.stagedOf]
@[simp] theorem updateEntry_pendingOf (s : State) (p : Port) (tag : Nat) (f : Entry → Entry) (j : LineNo) : (updateEntry p tag f s).pendingOf j = s.pendingOf j := by
  simp [State.pendingOf]
@[simp] theorem updateEntry_inReset (s : State) (p : Port) (tag : Nat) (f : Entry → Entry) : (updateEntry p tag f s).inReset = s.inReset := by simp [State.inReset]

/-! ### `answerEntry` -/

@[simp] theorem answerEntry_engine (s : State) (p : Port) (e : Entry) (status : Status) (data : Data) : (answerEntry p e status data s).engine = s.engine := by cases p <;> rfl
@[simp] theorem answerEntry_commit (s : State) (p : Port) (e : Entry) (status : Status) (data : Data) : (answerEntry p e status data s).commit = s.commit := by cases p <;> rfl
@[simp] theorem answerEntry_memQueue (s : State) (p : Port) (e : Entry) (status : Status) (data : Data) : (answerEntry p e status data s).memQueue = s.memQueue := by cases p <;> rfl
@[simp] theorem answerEntry_incidents (s : State) (p : Port) (e : Entry) (status : Status) (data : Data) : (answerEntry p e status data s).incidents = s.incidents := by cases p <;> rfl
@[simp] theorem answerEntry_handed (s : State) (p : Port) (e : Entry) (status : Status) (data : Data) : (answerEntry p e status data s).handed = s.handed := by cases p <;> rfl
@[simp] theorem answerEntry_link (s : State) (p : Port) (e : Entry) (status : Status) (data : Data) : (answerEntry p e status data s).link = s.link := by cases p <;> rfl
@[simp] theorem answerEntry_tickCount (s : State) (p : Port) (e : Entry) (status : Status) (data : Data) : (answerEntry p e status data s).tickCount = s.tickCount := by cases p <;> rfl
@[simp] theorem answerEntry_porstnLow (s : State) (p : Port) (e : Entry) (status : Status) (data : Data) : (answerEntry p e status data s).porstnLow = s.porstnLow := by cases p <;> rfl
@[simp] theorem answerEntry_sysrstnLow (s : State) (p : Port) (e : Entry) (status : Status) (data : Data) : (answerEntry p e status data s).sysrstnLow = s.sysrstnLow := by cases p <;> rfl
@[simp] theorem answerEntry_pending (s : State) (p : Port) (e : Entry) (status : Status) (data : Data) : (answerEntry p e status data s).pending = s.pending := by cases p <;> rfl
@[simp] theorem answerEntry_line (s : State) (p : Port) (e : Entry) (status : Status) (data : Data) (j : LineNo) : (answerEntry p e status data s).line j = s.line j := by simp [State.line]
@[simp] theorem answerEntry_urgent (s : State) (p : Port) (e : Entry) (status : Status) (data : Data) (q : Port) : (answerEntry p e status data s).urgent q = s.urgent q := by
  cases q <;> simp [State.urgent]
@[simp] theorem answerEntry_stagedOf (s : State) (p : Port) (e : Entry) (status : Status) (data : Data) (j : LineNo) : (answerEntry p e status data s).stagedOf j = s.stagedOf j := by
  simp [State.stagedOf]
@[simp] theorem answerEntry_pendingOf (s : State) (p : Port) (e : Entry) (status : Status) (data : Data) (j : LineNo) : (answerEntry p e status data s).pendingOf j = s.pendingOf j := by
  simp [State.pendingOf]
@[simp] theorem answerEntry_inReset (s : State) (p : Port) (e : Entry) (status : Status) (data : Data) : (answerEntry p e status data s).inReset = s.inReset := by simp [State.inReset]

/-! ### `issue` -/

@[simp] theorem issue_engine (s : State) (p : Port) (e : Entry) (t : Transaction) : (issue p e t s).engine = s.engine := by cases p <;> rfl
@[simp] theorem issue_commit (s : State) (p : Port) (e : Entry) (t : Transaction) : (issue p e t s).commit = s.commit := by cases p <;> rfl
@[simp] theorem issue_incidents (s : State) (p : Port) (e : Entry) (t : Transaction) : (issue p e t s).incidents = s.incidents := by cases p <;> rfl
@[simp] theorem issue_handed (s : State) (p : Port) (e : Entry) (t : Transaction) : (issue p e t s).handed = s.handed := by cases p <;> rfl
@[simp] theorem issue_link (s : State) (p : Port) (e : Entry) (t : Transaction) : (issue p e t s).link = s.link := by cases p <;> rfl
@[simp] theorem issue_tickCount (s : State) (p : Port) (e : Entry) (t : Transaction) : (issue p e t s).tickCount = s.tickCount := by cases p <;> rfl
@[simp] theorem issue_porstnLow (s : State) (p : Port) (e : Entry) (t : Transaction) : (issue p e t s).porstnLow = s.porstnLow := by cases p <;> rfl
@[simp] theorem issue_sysrstnLow (s : State) (p : Port) (e : Entry) (t : Transaction) : (issue p e t s).sysrstnLow = s.sysrstnLow := by cases p <;> rfl
@[simp] theorem issue_pending (s : State) (p : Port) (e : Entry) (t : Transaction) : (issue p e t s).pending = s.pending := by cases p <;> rfl
@[simp] theorem issue_line (s : State) (p : Port) (e : Entry) (t : Transaction) (j : LineNo) : (issue p e t s).line j = s.line j := by simp [State.line]
@[simp] theorem issue_urgent (s : State) (p : Port) (e : Entry) (t : Transaction) (q : Port) : (issue p e t s).urgent q = s.urgent q := by
  cases q <;> simp [State.urgent]
@[simp] theorem issue_stagedOf (s : State) (p : Port) (e : Entry) (t : Transaction) (j : LineNo) : (issue p e t s).stagedOf j = s.stagedOf j := by
  simp [State.stagedOf]
@[simp] theorem issue_pendingOf (s : State) (p : Port) (e : Entry) (t : Transaction) (j : LineNo) : (issue p e t s).pendingOf j = s.pendingOf j := by
  simp [State.pendingOf]
@[simp] theorem issue_inReset (s : State) (p : Port) (e : Entry) (t : Transaction) : (issue p e t s).inReset = s.inReset := by simp [State.inReset]

/-! ### `hand` -/

@[simp] theorem hand_portA (s : State) (source : Source) (x : Incident) : (hand source x s).portA = s.portA := rfl
@[simp] theorem hand_portB (s : State) (source : Source) (x : Incident) : (hand source x s).portB = s.portB := rfl
@[simp] theorem hand_engine (s : State) (source : Source) (x : Incident) : (hand source x s).engine = s.engine := rfl
@[simp] theorem hand_commit (s : State) (source : Source) (x : Incident) : (hand source x s).commit = s.commit := rfl
@[simp] theorem hand_memQueue (s : State) (source : Source) (x : Incident) : (hand source x s).memQueue = s.memQueue := rfl
@[simp] theorem hand_incidents (s : State) (source : Source) (x : Incident) : (hand source x s).incidents = s.incidents := rfl
@[simp] theorem hand_link (s : State) (source : Source) (x : Incident) : (hand source x s).link = s.link := rfl
@[simp] theorem hand_tickCount (s : State) (source : Source) (x : Incident) : (hand source x s).tickCount = s.tickCount := rfl
@[simp] theorem hand_porstnLow (s : State) (source : Source) (x : Incident) : (hand source x s).porstnLow = s.porstnLow := rfl
@[simp] theorem hand_sysrstnLow (s : State) (source : Source) (x : Incident) : (hand source x s).sysrstnLow = s.sysrstnLow := rfl
@[simp] theorem hand_pending (s : State) (source : Source) (x : Incident) : (hand source x s).pending = s.pending := rfl
@[simp] theorem hand_line (s : State) (source : Source) (x : Incident) (j : LineNo) : (hand source x s).line j = s.line j := by simp [State.line]
@[simp] theorem hand_urgent (s : State) (source : Source) (x : Incident) (q : Port) : (hand source x s).urgent q = s.urgent q := by
  cases q <;> simp [State.urgent]
@[simp] theorem hand_stagedOf (s : State) (source : Source) (x : Incident) (j : LineNo) : (hand source x s).stagedOf j = s.stagedOf j := by
  simp [State.stagedOf]
@[simp] theorem hand_pendingOf (s : State) (source : Source) (x : Incident) (j : LineNo) : (hand source x s).pendingOf j = s.pendingOf j := by
  simp [State.pendingOf]
@[simp] theorem hand_intake (s : State) (source : Source) (x : Incident) (q : Port) : (hand source x s).intake q = s.intake q := by
  cases q <;> rfl
@[simp] theorem hand_inReset (s : State) (source : Source) (x : Incident) : (hand source x s).inReset = s.inReset := by simp [State.inReset]

/-! ### `park` -/

@[simp] theorem park_engine (s : State) (p : Port) (e : Entry) (due : Option (BitVec 32)) : (park p e due s).engine = s.engine := by cases p <;> rfl
@[simp] theorem park_commit (s : State) (p : Port) (e : Entry) (due : Option (BitVec 32)) : (park p e due s).commit = s.commit := by cases p <;> rfl
@[simp] theorem park_memQueue (s : State) (p : Port) (e : Entry) (due : Option (BitVec 32)) : (park p e due s).memQueue = s.memQueue := by cases p <;> rfl
@[simp] theorem park_incidents (s : State) (p : Port) (e : Entry) (due : Option (BitVec 32)) : (park p e due s).incidents = s.incidents := by cases p <;> rfl
@[simp] theorem park_handed (s : State) (p : Port) (e : Entry) (due : Option (BitVec 32)) : (park p e due s).handed = s.handed := by cases p <;> rfl
@[simp] theorem park_link (s : State) (p : Port) (e : Entry) (due : Option (BitVec 32)) : (park p e due s).link = s.link := by cases p <;> rfl
@[simp] theorem park_tickCount (s : State) (p : Port) (e : Entry) (due : Option (BitVec 32)) : (park p e due s).tickCount = s.tickCount := by cases p <;> rfl
@[simp] theorem park_porstnLow (s : State) (p : Port) (e : Entry) (due : Option (BitVec 32)) : (park p e due s).porstnLow = s.porstnLow := by cases p <;> rfl
@[simp] theorem park_sysrstnLow (s : State) (p : Port) (e : Entry) (due : Option (BitVec 32)) : (park p e due s).sysrstnLow = s.sysrstnLow := by cases p <;> rfl
@[simp] theorem park_pending (s : State) (p : Port) (e : Entry) (due : Option (BitVec 32)) : (park p e due s).pending = s.pending := by cases p <;> rfl
@[simp] theorem park_line (s : State) (p : Port) (e : Entry) (due : Option (BitVec 32)) (j : LineNo) : (park p e due s).line j = s.line j := by simp [State.line]
@[simp] theorem park_urgent (s : State) (p : Port) (e : Entry) (due : Option (BitVec 32)) (q : Port) : (park p e due s).urgent q = s.urgent q := by
  cases q <;> simp [State.urgent]
@[simp] theorem park_stagedOf (s : State) (p : Port) (e : Entry) (due : Option (BitVec 32)) (j : LineNo) : (park p e due s).stagedOf j = s.stagedOf j := by
  simp [State.stagedOf]
@[simp] theorem park_pendingOf (s : State) (p : Port) (e : Entry) (due : Option (BitVec 32)) (j : LineNo) : (park p e due s).pendingOf j = s.pendingOf j := by
  simp [State.pendingOf]
@[simp] theorem park_inReset (s : State) (p : Port) (e : Entry) (due : Option (BitVec 32)) : (park p e due s).inReset = s.inReset := by simp [State.inReset]

/-! ### `releasePort` -/

@[simp] theorem releasePort_engine (s : State) (i : LineNo) (op : ParkedOp) (p : Port) : (releasePort i op p s).engine = s.engine := by cases p <;> rfl
@[simp] theorem releasePort_commit (s : State) (i : LineNo) (op : ParkedOp) (p : Port) : (releasePort i op p s).commit = s.commit := by cases p <;> rfl
@[simp] theorem releasePort_memQueue (s : State) (i : LineNo) (op : ParkedOp) (p : Port) : (releasePort i op p s).memQueue = s.memQueue := by cases p <;> rfl
@[simp] theorem releasePort_incidents (s : State) (i : LineNo) (op : ParkedOp) (p : Port) : (releasePort i op p s).incidents = s.incidents := by cases p <;> rfl
@[simp] theorem releasePort_handed (s : State) (i : LineNo) (op : ParkedOp) (p : Port) : (releasePort i op p s).handed = s.handed := by cases p <;> rfl
@[simp] theorem releasePort_link (s : State) (i : LineNo) (op : ParkedOp) (p : Port) : (releasePort i op p s).link = s.link := by cases p <;> rfl
@[simp] theorem releasePort_tickCount (s : State) (i : LineNo) (op : ParkedOp) (p : Port) : (releasePort i op p s).tickCount = s.tickCount := by cases p <;> rfl
@[simp] theorem releasePort_porstnLow (s : State) (i : LineNo) (op : ParkedOp) (p : Port) : (releasePort i op p s).porstnLow = s.porstnLow := by cases p <;> rfl
@[simp] theorem releasePort_sysrstnLow (s : State) (i : LineNo) (op : ParkedOp) (p : Port) : (releasePort i op p s).sysrstnLow = s.sysrstnLow := by cases p <;> rfl
@[simp] theorem releasePort_pending (s : State) (i : LineNo) (op : ParkedOp) (p : Port) : (releasePort i op p s).pending = s.pending := by cases p <;> rfl
@[simp] theorem releasePort_line (s : State) (i : LineNo) (op : ParkedOp) (p : Port) (j : LineNo) : (releasePort i op p s).line j = s.line j := by simp [State.line]
@[simp] theorem releasePort_urgent (s : State) (i : LineNo) (op : ParkedOp) (p : Port) (q : Port) : (releasePort i op p s).urgent q = s.urgent q := by
  cases q <;> simp [State.urgent]
@[simp] theorem releasePort_stagedOf (s : State) (i : LineNo) (op : ParkedOp) (p : Port) (j : LineNo) : (releasePort i op p s).stagedOf j = s.stagedOf j := by
  simp [State.stagedOf]
@[simp] theorem releasePort_pendingOf (s : State) (i : LineNo) (op : ParkedOp) (p : Port) (j : LineNo) : (releasePort i op p s).pendingOf j = s.pendingOf j := by
  simp [State.pendingOf]
@[simp] theorem releasePort_inReset (s : State) (i : LineNo) (op : ParkedOp) (p : Port) : (releasePort i op p s).inReset = s.inReset := by simp [State.inReset]

/-! ### `releaseParked` -/

@[simp] theorem releaseParked_engine (s : State) (i : LineNo) (op : ParkedOp) : (releaseParked i op s).engine = s.engine := rfl
@[simp] theorem releaseParked_commit (s : State) (i : LineNo) (op : ParkedOp) : (releaseParked i op s).commit = s.commit := rfl
@[simp] theorem releaseParked_memQueue (s : State) (i : LineNo) (op : ParkedOp) : (releaseParked i op s).memQueue = s.memQueue := rfl
@[simp] theorem releaseParked_incidents (s : State) (i : LineNo) (op : ParkedOp) : (releaseParked i op s).incidents = s.incidents := rfl
@[simp] theorem releaseParked_handed (s : State) (i : LineNo) (op : ParkedOp) : (releaseParked i op s).handed = s.handed := rfl
@[simp] theorem releaseParked_link (s : State) (i : LineNo) (op : ParkedOp) : (releaseParked i op s).link = s.link := rfl
@[simp] theorem releaseParked_tickCount (s : State) (i : LineNo) (op : ParkedOp) : (releaseParked i op s).tickCount = s.tickCount := rfl
@[simp] theorem releaseParked_porstnLow (s : State) (i : LineNo) (op : ParkedOp) : (releaseParked i op s).porstnLow = s.porstnLow := rfl
@[simp] theorem releaseParked_sysrstnLow (s : State) (i : LineNo) (op : ParkedOp) : (releaseParked i op s).sysrstnLow = s.sysrstnLow := rfl
@[simp] theorem releaseParked_pending (s : State) (i : LineNo) (op : ParkedOp) : (releaseParked i op s).pending = s.pending := rfl
@[simp] theorem releaseParked_line (s : State) (i : LineNo) (op : ParkedOp) (j : LineNo) : (releaseParked i op s).line j = s.line j := by simp [State.line]
@[simp] theorem releaseParked_urgent (s : State) (i : LineNo) (op : ParkedOp) (q : Port) : (releaseParked i op s).urgent q = s.urgent q := by
  cases q <;> simp [State.urgent]
@[simp] theorem releaseParked_stagedOf (s : State) (i : LineNo) (op : ParkedOp) (j : LineNo) : (releaseParked i op s).stagedOf j = s.stagedOf j := by
  simp [State.stagedOf]
@[simp] theorem releaseParked_pendingOf (s : State) (i : LineNo) (op : ParkedOp) (j : LineNo) : (releaseParked i op s).pendingOf j = s.pendingOf j := by
  simp [State.pendingOf]
@[simp] theorem releaseParked_inReset (s : State) (i : LineNo) (op : ParkedOp) : (releaseParked i op s).inReset = s.inReset := by simp [State.inReset]

/-! ### `abandonPort` -/

@[simp] theorem abandonPort_engine (s : State) (source : Source) (cause : Cause) (which : Entry → Bool) (p : Port) : (abandonPort source cause which p s).engine = s.engine := by cases p <;> rfl
@[simp] theorem abandonPort_commit (s : State) (source : Source) (cause : Cause) (which : Entry → Bool) (p : Port) : (abandonPort source cause which p s).commit = s.commit := by cases p <;> rfl
@[simp] theorem abandonPort_memQueue (s : State) (source : Source) (cause : Cause) (which : Entry → Bool) (p : Port) : (abandonPort source cause which p s).memQueue = s.memQueue := by cases p <;> rfl
@[simp] theorem abandonPort_incidents (s : State) (source : Source) (cause : Cause) (which : Entry → Bool) (p : Port) : (abandonPort source cause which p s).incidents = s.incidents := by cases p <;> rfl
@[simp] theorem abandonPort_link (s : State) (source : Source) (cause : Cause) (which : Entry → Bool) (p : Port) : (abandonPort source cause which p s).link = s.link := by cases p <;> rfl
@[simp] theorem abandonPort_tickCount (s : State) (source : Source) (cause : Cause) (which : Entry → Bool) (p : Port) : (abandonPort source cause which p s).tickCount = s.tickCount := by cases p <;> rfl
@[simp] theorem abandonPort_porstnLow (s : State) (source : Source) (cause : Cause) (which : Entry → Bool) (p : Port) : (abandonPort source cause which p s).porstnLow = s.porstnLow := by cases p <;> rfl
@[simp] theorem abandonPort_sysrstnLow (s : State) (source : Source) (cause : Cause) (which : Entry → Bool) (p : Port) : (abandonPort source cause which p s).sysrstnLow = s.sysrstnLow := by cases p <;> rfl
@[simp] theorem abandonPort_pending (s : State) (source : Source) (cause : Cause) (which : Entry → Bool) (p : Port) : (abandonPort source cause which p s).pending = s.pending := by cases p <;> rfl
@[simp] theorem abandonPort_line (s : State) (source : Source) (cause : Cause) (which : Entry → Bool) (p : Port) (j : LineNo) : (abandonPort source cause which p s).line j = s.line j := by simp [State.line]
@[simp] theorem abandonPort_urgent (s : State) (source : Source) (cause : Cause) (which : Entry → Bool) (p : Port) (q : Port) : (abandonPort source cause which p s).urgent q = s.urgent q := by
  cases q <;> simp [State.urgent]
@[simp] theorem abandonPort_stagedOf (s : State) (source : Source) (cause : Cause) (which : Entry → Bool) (p : Port) (j : LineNo) : (abandonPort source cause which p s).stagedOf j = s.stagedOf j := by
  simp [State.stagedOf]
@[simp] theorem abandonPort_pendingOf (s : State) (source : Source) (cause : Cause) (which : Entry → Bool) (p : Port) (j : LineNo) : (abandonPort source cause which p s).pendingOf j = s.pendingOf j := by
  simp [State.pendingOf]
@[simp] theorem abandonPort_inReset (s : State) (source : Source) (cause : Cause) (which : Entry → Bool) (p : Port) : (abandonPort source cause which p s).inReset = s.inReset := by simp [State.inReset]

/-! ### `abandon` -/

@[simp] theorem abandon_engine (s : State) (source : Source) (cause : Cause) (which : Entry → Bool) : (abandon source cause which s).engine = s.engine := rfl
@[simp] theorem abandon_commit (s : State) (source : Source) (cause : Cause) (which : Entry → Bool) : (abandon source cause which s).commit = s.commit := rfl
@[simp] theorem abandon_memQueue (s : State) (source : Source) (cause : Cause) (which : Entry → Bool) : (abandon source cause which s).memQueue = s.memQueue := rfl
@[simp] theorem abandon_incidents (s : State) (source : Source) (cause : Cause) (which : Entry → Bool) : (abandon source cause which s).incidents = s.incidents := rfl
@[simp] theorem abandon_link (s : State) (source : Source) (cause : Cause) (which : Entry → Bool) : (abandon source cause which s).link = s.link := rfl
@[simp] theorem abandon_tickCount (s : State) (source : Source) (cause : Cause) (which : Entry → Bool) : (abandon source cause which s).tickCount = s.tickCount := rfl
@[simp] theorem abandon_porstnLow (s : State) (source : Source) (cause : Cause) (which : Entry → Bool) : (abandon source cause which s).porstnLow = s.porstnLow := rfl
@[simp] theorem abandon_sysrstnLow (s : State) (source : Source) (cause : Cause) (which : Entry → Bool) : (abandon source cause which s).sysrstnLow = s.sysrstnLow := rfl
@[simp] theorem abandon_pending (s : State) (source : Source) (cause : Cause) (which : Entry → Bool) : (abandon source cause which s).pending = s.pending := rfl
@[simp] theorem abandon_line (s : State) (source : Source) (cause : Cause) (which : Entry → Bool) (j : LineNo) : (abandon source cause which s).line j = s.line j := by simp [State.line]
@[simp] theorem abandon_urgent (s : State) (source : Source) (cause : Cause) (which : Entry → Bool) (q : Port) : (abandon source cause which s).urgent q = s.urgent q := by
  cases q <;> simp [State.urgent]
@[simp] theorem abandon_stagedOf (s : State) (source : Source) (cause : Cause) (which : Entry → Bool) (j : LineNo) : (abandon source cause which s).stagedOf j = s.stagedOf j := by
  simp [State.stagedOf]
@[simp] theorem abandon_pendingOf (s : State) (source : Source) (cause : Cause) (which : Entry → Bool) (j : LineNo) : (abandon source cause which s).pendingOf j = s.pendingOf j := by
  simp [State.pendingOf]
@[simp] theorem abandon_inReset (s : State) (source : Source) (cause : Cause) (which : Entry → Bool) : (abandon source cause which s).inReset = s.inReset := by simp [State.inReset]

/-! ### `setOutcome` -/

@[simp] theorem setOutcome_portA (s : State) (i : LineNo) (outcome : CommitOutcome) : (setOutcome i outcome s).portA = s.portA := rfl
@[simp] theorem setOutcome_portB (s : State) (i : LineNo) (outcome : CommitOutcome) : (setOutcome i outcome s).portB = s.portB := rfl
@[simp] theorem setOutcome_commit (s : State) (i : LineNo) (outcome : CommitOutcome) : (setOutcome i outcome s).commit = s.commit := rfl
@[simp] theorem setOutcome_memQueue (s : State) (i : LineNo) (outcome : CommitOutcome) : (setOutcome i outcome s).memQueue = s.memQueue := rfl
@[simp] theorem setOutcome_incidents (s : State) (i : LineNo) (outcome : CommitOutcome) : (setOutcome i outcome s).incidents = s.incidents := rfl
@[simp] theorem setOutcome_handed (s : State) (i : LineNo) (outcome : CommitOutcome) : (setOutcome i outcome s).handed = s.handed := rfl
@[simp] theorem setOutcome_link (s : State) (i : LineNo) (outcome : CommitOutcome) : (setOutcome i outcome s).link = s.link := rfl
@[simp] theorem setOutcome_tickCount (s : State) (i : LineNo) (outcome : CommitOutcome) : (setOutcome i outcome s).tickCount = s.tickCount := rfl
@[simp] theorem setOutcome_porstnLow (s : State) (i : LineNo) (outcome : CommitOutcome) : (setOutcome i outcome s).porstnLow = s.porstnLow := rfl
@[simp] theorem setOutcome_sysrstnLow (s : State) (i : LineNo) (outcome : CommitOutcome) : (setOutcome i outcome s).sysrstnLow = s.sysrstnLow := rfl
@[simp] theorem setOutcome_pending (s : State) (i : LineNo) (outcome : CommitOutcome) : (setOutcome i outcome s).pending = s.pending := rfl
@[simp] theorem setOutcome_stagedOf (s : State) (i : LineNo) (outcome : CommitOutcome) (j : LineNo) : (setOutcome i outcome s).stagedOf j = s.stagedOf j := by
  simp [State.stagedOf]
@[simp] theorem setOutcome_pendingOf (s : State) (i : LineNo) (outcome : CommitOutcome) (j : LineNo) : (setOutcome i outcome s).pendingOf j = s.pendingOf j := by
  simp [State.pendingOf]
@[simp] theorem setOutcome_intake (s : State) (i : LineNo) (outcome : CommitOutcome) (q : Port) : (setOutcome i outcome s).intake q = s.intake q := by
  cases q <;> rfl
@[simp] theorem setOutcome_inReset (s : State) (i : LineNo) (outcome : CommitOutcome) : (setOutcome i outcome s).inReset = s.inReset := by simp [State.inReset]

/-! ### `shiftFrame` -/

@[simp] theorem shiftFrame_portA (s : State) (bytes : List Byte) : (shiftFrame bytes s).portA = s.portA := rfl
@[simp] theorem shiftFrame_portB (s : State) (bytes : List Byte) : (shiftFrame bytes s).portB = s.portB := rfl
@[simp] theorem shiftFrame_engine (s : State) (bytes : List Byte) : (shiftFrame bytes s).engine = s.engine := rfl
@[simp] theorem shiftFrame_commit (s : State) (bytes : List Byte) : (shiftFrame bytes s).commit = s.commit := rfl
@[simp] theorem shiftFrame_memQueue (s : State) (bytes : List Byte) : (shiftFrame bytes s).memQueue = s.memQueue := rfl
@[simp] theorem shiftFrame_incidents (s : State) (bytes : List Byte) : (shiftFrame bytes s).incidents = s.incidents := rfl
@[simp] theorem shiftFrame_handed (s : State) (bytes : List Byte) : (shiftFrame bytes s).handed = s.handed := rfl
@[simp] theorem shiftFrame_tickCount (s : State) (bytes : List Byte) : (shiftFrame bytes s).tickCount = s.tickCount := rfl
@[simp] theorem shiftFrame_porstnLow (s : State) (bytes : List Byte) : (shiftFrame bytes s).porstnLow = s.porstnLow := rfl
@[simp] theorem shiftFrame_sysrstnLow (s : State) (bytes : List Byte) : (shiftFrame bytes s).sysrstnLow = s.sysrstnLow := rfl
@[simp] theorem shiftFrame_pending (s : State) (bytes : List Byte) : (shiftFrame bytes s).pending = s.pending := rfl
@[simp] theorem shiftFrame_line (s : State) (bytes : List Byte) (j : LineNo) : (shiftFrame bytes s).line j = s.line j := by simp [State.line]
@[simp] theorem shiftFrame_urgent (s : State) (bytes : List Byte) (q : Port) : (shiftFrame bytes s).urgent q = s.urgent q := by
  cases q <;> simp [State.urgent]
@[simp] theorem shiftFrame_stagedOf (s : State) (bytes : List Byte) (j : LineNo) : (shiftFrame bytes s).stagedOf j = s.stagedOf j := by
  simp [State.stagedOf]
@[simp] theorem shiftFrame_pendingOf (s : State) (bytes : List Byte) (j : LineNo) : (shiftFrame bytes s).pendingOf j = s.pendingOf j := by
  simp [State.pendingOf]
@[simp] theorem shiftFrame_intake (s : State) (bytes : List Byte) (q : Port) : (shiftFrame bytes s).intake q = s.intake q := by
  cases q <;> rfl
@[simp] theorem shiftFrame_inReset (s : State) (bytes : List Byte) : (shiftFrame bytes s).inReset = s.inReset := by simp [State.inReset]

/-! ### `setHeld` -/

@[simp] theorem setHeld_portA (s : State) (h : Held) : (setHeld h s).portA = s.portA := rfl
@[simp] theorem setHeld_portB (s : State) (h : Held) : (setHeld h s).portB = s.portB := rfl
@[simp] theorem setHeld_engine (s : State) (h : Held) : (setHeld h s).engine = s.engine := rfl
@[simp] theorem setHeld_commit (s : State) (h : Held) : (setHeld h s).commit = s.commit := rfl
@[simp] theorem setHeld_memQueue (s : State) (h : Held) : (setHeld h s).memQueue = s.memQueue := rfl
@[simp] theorem setHeld_incidents (s : State) (h : Held) : (setHeld h s).incidents = s.incidents := rfl
@[simp] theorem setHeld_handed (s : State) (h : Held) : (setHeld h s).handed = s.handed := rfl
@[simp] theorem setHeld_tickCount (s : State) (h : Held) : (setHeld h s).tickCount = s.tickCount := rfl
@[simp] theorem setHeld_porstnLow (s : State) (h : Held) : (setHeld h s).porstnLow = s.porstnLow := rfl
@[simp] theorem setHeld_sysrstnLow (s : State) (h : Held) : (setHeld h s).sysrstnLow = s.sysrstnLow := rfl
@[simp] theorem setHeld_pending (s : State) (h : Held) : (setHeld h s).pending = s.pending := rfl
@[simp] theorem setHeld_line (s : State) (h : Held) (j : LineNo) : (setHeld h s).line j = s.line j := by simp [State.line]
@[simp] theorem setHeld_urgent (s : State) (h : Held) (q : Port) : (setHeld h s).urgent q = s.urgent q := by
  cases q <;> simp [State.urgent]
@[simp] theorem setHeld_stagedOf (s : State) (h : Held) (j : LineNo) : (setHeld h s).stagedOf j = s.stagedOf j := by
  simp [State.stagedOf]
@[simp] theorem setHeld_pendingOf (s : State) (h : Held) (j : LineNo) : (setHeld h s).pendingOf j = s.pendingOf j := by
  simp [State.pendingOf]
@[simp] theorem setHeld_intake (s : State) (h : Held) (q : Port) : (setHeld h s).intake q = s.intake q := by
  cases q <;> rfl
@[simp] theorem setHeld_inReset (s : State) (h : Held) : (setHeld h s).inReset = s.inReset := by simp [State.inReset]

/-! ### `setMode` -/

@[simp] theorem setMode_portA (s : State) (m : Mode) : (setMode m s).portA = s.portA := rfl
@[simp] theorem setMode_portB (s : State) (m : Mode) : (setMode m s).portB = s.portB := rfl
@[simp] theorem setMode_commit (s : State) (m : Mode) : (setMode m s).commit = s.commit := rfl
@[simp] theorem setMode_memQueue (s : State) (m : Mode) : (setMode m s).memQueue = s.memQueue := rfl
@[simp] theorem setMode_incidents (s : State) (m : Mode) : (setMode m s).incidents = s.incidents := rfl
@[simp] theorem setMode_handed (s : State) (m : Mode) : (setMode m s).handed = s.handed := rfl
@[simp] theorem setMode_link (s : State) (m : Mode) : (setMode m s).link = s.link := rfl
@[simp] theorem setMode_tickCount (s : State) (m : Mode) : (setMode m s).tickCount = s.tickCount := rfl
@[simp] theorem setMode_porstnLow (s : State) (m : Mode) : (setMode m s).porstnLow = s.porstnLow := rfl
@[simp] theorem setMode_sysrstnLow (s : State) (m : Mode) : (setMode m s).sysrstnLow = s.sysrstnLow := rfl
@[simp] theorem setMode_pending (s : State) (m : Mode) : (setMode m s).pending = s.pending := rfl
@[simp] theorem setMode_stagedOf (s : State) (m : Mode) (j : LineNo) : (setMode m s).stagedOf j = s.stagedOf j := by
  simp [State.stagedOf]
@[simp] theorem setMode_pendingOf (s : State) (m : Mode) (j : LineNo) : (setMode m s).pendingOf j = s.pendingOf j := by
  simp [State.pendingOf]
@[simp] theorem setMode_intake (s : State) (m : Mode) (q : Port) : (setMode m s).intake q = s.intake q := by
  cases q <;> rfl
@[simp] theorem setMode_inReset (s : State) (m : Mode) : (setMode m s).inReset = s.inReset := by simp [State.inReset]

/-! ### The accessors after the update of what they read -/

@[simp] theorem State.line_setLine_self (s : State) (i : LineNo) (l : Line) : (s.setLine i l).line i = l := by
  simp [State.line, State.setLine]

theorem State.line_setLine_ne (s : State) {i j : LineNo} (l : Line) (h : j ≠ i) : (s.setLine i l).line j = s.line j := by
  have hv : i.val ≠ j.val := fun hv => h (Fin.ext hv).symm
  simp [State.line, State.setLine, Vector.getElem_set_ne, hv]

@[simp] theorem State.stagedOf_setStaged_self (s : State) (i : LineNo) (d : Image) :
    (s.setStaged i d).stagedOf i = d := by
  simp [State.stagedOf, State.setStaged]

theorem State.stagedOf_setStaged_ne (s : State) {i j : LineNo} (d : Image) (h : j ≠ i) :
    (s.setStaged i d).stagedOf j = s.stagedOf j := by
  have hv : i.val ≠ j.val := fun hv => h (Fin.ext hv).symm
  simp [State.stagedOf, State.setStaged, Vector.getElem_set_ne, hv]

@[simp] theorem State.pendingOf_setPending_self (s : State) (i : LineNo) (t : Option Trigger) :
    (s.setPending i t).pendingOf i = t := by
  simp [State.pendingOf, State.setPending]

theorem State.pendingOf_setPending_ne (s : State) {i j : LineNo} (t : Option Trigger) (h : j ≠ i) :
    (s.setPending i t).pendingOf j = s.pendingOf j := by
  have hv : i.val ≠ j.val := fun hv => h (Fin.ext hv).symm
  simp [State.pendingOf, State.setPending, Vector.getElem_set_ne, hv]

@[simp] theorem State.setPending_stagedOf (s : State) (i j : LineNo) (t : Option Trigger) :
    (s.setPending i t).stagedOf j = s.stagedOf j := rfl

@[simp] theorem State.setStaged_pendingOf (s : State) (i j : LineNo) (d : Image) :
    (s.setStaged i d).pendingOf j = s.pendingOf j := rfl

@[simp] theorem recomputeUrgency_line (s : State) (j : LineNo) : (recomputeUrgency s).line j = s.line j := rfl

@[simp] theorem setMode_line (s : State) (m : Mode) (j : LineNo) : (setMode m s).line j = s.line j := rfl

@[simp] theorem State.intake_setIntake_self (s : State) (p : Port) (it : Intake) : (s.setIntake p it).intake p = it := by
  cases p <;> rfl

@[simp] theorem State.intake_setIntake_other (s : State) (p : Port) (it : Intake) :
    (s.setIntake p it).intake (Port.other p) = s.intake (Port.other p) := by
  cases p <;> rfl

theorem State.intake_setIntake (s : State) (p q : Port) (it : Intake) :
    (s.setIntake p it).intake q = if q = p then it else s.intake q := by
  cases p <;> cases q <;> rfl

theorem State.intake_setIntake_ne (s : State) {p q : Port} (it : Intake) (h : q ≠ p) :
    (s.setIntake p it).intake q = s.intake q := by
  rw [State.intake_setIntake, if_neg h]

/-- Two states are equal where their twelve fields are. -/
theorem State.eq_of_fields {s t : State} (hA : s.portA = t.portA) (hB : s.portB = t.portB) (hE : s.engine = t.engine)
    (hC : s.commit = t.commit) (hM : s.memQueue = t.memQueue) (hI : s.incidents = t.incidents)
    (hH : s.handed = t.handed) (hL : s.link = t.link) (hT : s.tickCount = t.tickCount)
    (hP : s.porstnLow = t.porstnLow) (hR : s.sysrstnLow = t.sysrstnLow) (hQ : s.pending = t.pending) : s = t := by
  cases s
  cases t
  simp only at hA hB hE hC hM hI hH hL hT hP hR hQ
  subst hA hB hE hC hM hI hH hL hT hP hR hQ
  rfl

/-- The state is made of its two intakes and the rest. -/
theorem State.ext_intakes {s t : State} (h : ∀ q : Port, t.intake q = s.intake q)
    (rest : t = { s with portA := t.portA, portB := t.portB }) : t = s := by
  have hA := h .A
  have hB := h .B
  simp only [State.intake] at hA hB
  rw [rest, hA, hB]

end Sys2Proof.Machine
end

