-- ==== Sys2Proof/Laws/Ops.lean ====
section
/-! SUPPORT. What each shared operation can do, said once: the intakes after every operation over entries, the take, the
frames of the link, the incident unit, the clash check and the commits. -/

namespace Sys2Proof.Machine

/-! ## The intakes -/

theorem intake_setDeadline (s : State) (p q : Port) (d : Option (BitVec 32)) :
    (setDeadline p d s).intake q = if q = p then { s.intake p with deadline := d } else s.intake q := by
  rw [setDeadline, State.intake_setIntake]

theorem intake_updateEntry (s : State) (p q : Port) (tag : Nat) (f : Entry → Entry) :
    (updateEntry p tag f s).intake q =
      if q = p then { s.intake p with openList := updateEntries tag f (s.intake p).openList } else s.intake q := by
  rw [updateEntry, State.intake_setIntake]

/-- Changing one entry, said of the whole state: the entry's port has its list mapped, the other port is untouched. -/
theorem intake_updateEntry_map (s : State) (p q : Port) (tag : Nat) (f : Entry → Entry) :
    (updateEntry p tag f s).intake q =
      { s.intake q with
        openList := (s.intake q).openList.map fun x => if q = p ∧ x.tag = tag then f x else x } := by
  rw [intake_updateEntry]
  by_cases h : q = p
  · subst h
    simp [updateEntries]
  · simp [h]

theorem intake_answerEntry (s : State) (p q : Port) (e : Entry) (status : Status) (data : Data) :
    (answerEntry p e status data s).intake q =
      { s.intake q with
        openList := (s.intake q).openList.map fun x =>
          if q = p ∧ x.tag = e.tag then Entry.answered status data x else x } :=
  intake_updateEntry_map s p q e.tag _

theorem intake_issue (s : State) (p q : Port) (e : Entry) (t : Transaction) :
    (issue p e t s).intake q =
      { s.intake q with
        openList := (s.intake q).openList.map fun x =>
          if q = p ∧ x.tag = e.tag then { x with state := .issued } else x } := by
  rw [issue, intake_updateEntry_map]
  cases q <;> rfl

@[simp] theorem issue_memQueue (s : State) (p : Port) (e : Entry) (t : Transaction) :
    (issue p e t s).memQueue = s.memQueue ++ [t] := by cases p <;> rfl

@[simp] theorem hand_handed (s : State) (source : Source) (x : Incident) :
    (hand source x s).handed = s.handed ++ [{ source := source, incident := x }] := rfl

/-! A release changes an entry's state alone. -/

@[simp] theorem Entry.releasedFrom_tag (i : LineNo) (op : ParkedOp) (e : Entry) :
    (Entry.releasedFrom i op e).tag = e.tag := by
  unfold Entry.releasedFrom
  split <;> rfl

@[simp] theorem Entry.releasedFrom_access (i : LineNo) (op : ParkedOp) (e : Entry) :
    (Entry.releasedFrom i op e).access = e.access := by
  unfold Entry.releasedFrom
  split <;> rfl

@[simp] theorem Entry.releasedFrom_addr (i : LineNo) (op : ParkedOp) (e : Entry) :
    (Entry.releasedFrom i op e).addr = e.addr := by
  unfold Entry.releasedFrom
  split <;> rfl

@[simp] theorem Entry.releasedFrom_size (i : LineNo) (op : ParkedOp) (e : Entry) :
    (Entry.releasedFrom i op e).size = e.size := by
  unfold Entry.releasedFrom
  split <;> rfl

@[simp] theorem Entry.releasedFrom_cls (i : LineNo) (op : ParkedOp) (e : Entry) :
    (Entry.releasedFrom i op e).cls = e.cls := by
  unfold Entry.releasedFrom
  split <;> rfl

@[simp] theorem Entry.releasedFrom_answer (i : LineNo) (op : ParkedOp) (e : Entry) :
    (Entry.releasedFrom i op e).answer = e.answer := by
  unfold Entry.releasedFrom
  split <;> rfl

theorem intake_releasePort (s : State) (i : LineNo) (op : ParkedOp) (p q : Port) :
    (releasePort i op p s).intake q =
      if q = p then { s.intake p with openList := (s.intake p).openList.map (Entry.releasedFrom i op) }
      else s.intake q := by
  rw [releasePort, State.intake_setIntake]

/-- A release reaches every entry of both ports that it frees, and changes nothing but their state. -/
theorem intake_releaseParked (s : State) (i : LineNo) (op : ParkedOp) (q : Port) :
    (releaseParked i op s).intake q =
      { s.intake q with openList := (s.intake q).openList.map (Entry.releasedFrom i op) } := by
  rw [releaseParked, intake_releasePort]
  cases q <;> simp [intake_releasePort]

/-- Both ports' held entries that `which` picks end, each port on its own. -/
theorem intake_abandon (s : State) (source : Source) (cause : Cause) (which : Entry → Bool) (q : Port) :
    (abandon source cause which s).intake q = endHeld which (s.intake q) := by
  cases q <;> rfl

/-- Abandonment hands an ABANDONED incident for each entry it ends, Port A's first. -/
theorem abandon_handed (s : State) (source : Source) (cause : Cause) (which : Entry → Bool) :
    (abandon source cause which s).handed =
      s.handed
        ++ ((heldEntries which s.portA).map fun e =>
            { source := source, incident := abandonedIncident .A cause e : Handed })
        ++ ((heldEntries which s.portB).map fun e =>
            { source := source, incident := abandonedIncident .B cause e : Handed }) := rfl

/-- Ending held entries maps the list; the deadline goes only where an entry ended. -/
theorem endHeld_eq (which : Entry → Bool) (it : Intake) :
    endHeld which it =
      { it with
        openList := it.openList.map fun e => if Entry.isHeld e && which e then Entry.answered .error 0 e else e,
        deadline := if it.openList.any fun e => Entry.isHeld e && which e then none else it.deadline } := by
  unfold endHeld heldEntries
  by_cases h : it.openList.any fun e => Entry.isHeld e && which e
  · have hne : (it.openList.filter fun e => Entry.isHeld e && which e).isEmpty = false := by
      obtain ⟨x, hx, hp⟩ := List.any_eq_true.mp h
      have hm : x ∈ it.openList.filter fun e => Entry.isHeld e && which e := List.mem_filter.mpr ⟨hx, hp⟩
      cases hl : it.openList.filter fun e => Entry.isHeld e && which e with
      | nil => rw [hl] at hm; cases hm
      | cons a l => rfl
    rw [hne, h]
    rfl
  · have hnone : ∀ x ∈ it.openList, (Entry.isHeld x && which x) = false := by
      intro x hx
      cases hp : (Entry.isHeld x && which x) with
      | false => rfl
      | true => exact absurd (List.any_eq_true.mpr ⟨x, hx, hp⟩) h
    have hnil : (it.openList.filter fun e => Entry.isHeld e && which e) = [] :=
      List.filter_eq_nil_iff.mpr fun x hx => by simp [hnone x hx]
    have hmap : (it.openList.map fun e => if Entry.isHeld e && which e then Entry.answered .error 0 e else e)
        = it.openList := by
      rw [List.map_congr_left (g := fun e => e) fun x hx => by simp [hnone x hx], List.map_id']
    have hany : (it.openList.any fun e => Entry.isHeld e && which e) = false := by simpa using h
    rw [hnil, hmap, hany]
    rfl

/-! ## The line table -/

/-- Setting one line's record, read at any line. -/
theorem State.line_setLine (s : State) (i j : LineNo) (l : Line) :
    (s.setLine i l).line j = if j = i then l else s.line j := by
  by_cases h : j = i
  · subst h
    simp
  · rw [State.line_setLine_ne s l h, if_neg h]

/-- Setting one line's pending commit, read at any line. -/
theorem State.pendingOf_setPending (s : State) (i j : LineNo) (t : Option Trigger) :
    (s.setPending i t).pendingOf j = if j = i then t else s.pendingOf j := by
  by_cases h : j = i
  · subst h
    simp
  · rw [State.pendingOf_setPending_ne s t h, if_neg h]

/-! ## The take -/

@[simp] theorem beginTake_engine (p : Port) (e : Entry) (d : Decoded) (s : State) :
    (beginTake p e d s).engine = { s.engine with lastChosen := p } := by
  unfold beginTake
  dsimp only
  split <;> simp

@[simp] theorem beginTake_line (p : Port) (e : Entry) (d : Decoded) (s : State) (j : LineNo) :
    (beginTake p e d s).line j = s.line j := by
  simp [State.line]

@[simp] theorem beginTake_commit (p : Port) (e : Entry) (d : Decoded) (s : State) :
    (beginTake p e d s).commit = s.commit := by
  unfold beginTake
  dsimp only
  split <;> simp

@[simp] theorem beginTake_pendingOf (p : Port) (e : Entry) (d : Decoded) (s : State) (j : LineNo) :
    (beginTake p e d s).pendingOf j = s.pendingOf j := by
  simp [State.pendingOf]

@[simp] theorem beginTake_stagedOf (p : Port) (e : Entry) (d : Decoded) (s : State) (j : LineNo) :
    (beginTake p e d s).stagedOf j = s.stagedOf j := by
  simp [State.stagedOf]

/-- The start of a take changes the intakes and the last-chosen port, and nothing else. -/
theorem beginTake_eq (p : Port) (e : Entry) (d : Decoded) (s : State) :
    beginTake p e d s =
      { s with
        portA := (beginTake p e d s).portA, portB := (beginTake p e d s).portB,
        engine := { s.engine with lastChosen := p } } := by
  unfold beginTake
  dsimp only
  split <;> cases p <;> rfl

@[simp] theorem beginTake_memQueue (p : Port) (e : Entry) (d : Decoded) (s : State) :
    (beginTake p e d s).memQueue = s.memQueue := by
  rw [beginTake_eq]

@[simp] theorem beginTake_incidents (p : Port) (e : Entry) (d : Decoded) (s : State) :
    (beginTake p e d s).incidents = s.incidents := by
  rw [beginTake_eq]

@[simp] theorem beginTake_handed (p : Port) (e : Entry) (d : Decoded) (s : State) :
    (beginTake p e d s).handed = s.handed := by
  rw [beginTake_eq]

@[simp] theorem beginTake_link (p : Port) (e : Entry) (d : Decoded) (s : State) :
    (beginTake p e d s).link = s.link := by
  rw [beginTake_eq]

@[simp] theorem beginTake_tickCount (p : Port) (e : Entry) (d : Decoded) (s : State) :
    (beginTake p e d s).tickCount = s.tickCount := by
  rw [beginTake_eq]

@[simp] theorem beginTake_porstnLow (p : Port) (e : Entry) (d : Decoded) (s : State) :
    (beginTake p e d s).porstnLow = s.porstnLow := by
  rw [beginTake_eq]

@[simp] theorem beginTake_sysrstnLow (p : Port) (e : Entry) (d : Decoded) (s : State) :
    (beginTake p e d s).sysrstnLow = s.sysrstnLow := by
  rw [beginTake_eq]

@[simp] theorem beginTake_pending (p : Port) (e : Entry) (d : Decoded) (s : State) :
    (beginTake p e d s).pending = s.pending := by
  rw [beginTake_eq]

/-- The intakes after the start of a take: the class recorded in the taken entry, and a retaken entry's deadline
absent. -/
theorem intake_beginTake (p q : Port) (e : Entry) (d : Decoded) (s : State) :
    (beginTake p e d s).intake q =
      { s.intake q with
        openList := (s.intake q).openList.map fun x =>
          if q = p ∧ x.tag = e.tag then { x with cls := some (Decoded.toClass d) } else x,
        deadline := if q = p ∧ e.state = .released then none else (s.intake q).deadline } := by
  unfold beginTake
  by_cases h : e.state = .released
  · rw [if_pos h]
    rw [intake_setDeadline]
    by_cases hq : q = p
    · subst hq
      rw [if_pos rfl, intake_updateEntry_map]
      simp only [h, and_true, if_true]
      cases q <;> simp [State.intake]
    · rw [if_neg hq, intake_updateEntry_map]
      simp only [hq, false_and, if_false]
      cases q <;> rfl
  · rw [if_neg h, intake_updateEntry_map]
    simp only [h, and_false, if_false]
    cases q <;> rfl

/-- What TAKE does where it takes an entry: the start of the take, then what decoding found. -/
theorem execTake_takes {s : State} {p : Port} {e : Entry} {d : Decoded} (h : s.Takes p e d) :
    execTake s = .next (performDecoded (deadlineIfParked s p e d) p e d (beginTake p e d s)) := by
  obtain ⟨hr, hm, hn, hd⟩ := h
  have hc : ¬(s.inReset = true ∨ Config.memPlaces ≤ s.memQueue.length) := by
    simp [hr]
    omega
  subst hd
  simp only [execTake, if_neg hc, hn, takeEntry]

/-- What TAKE can do: nothing, or the take of the entry the arbiter names. -/
theorem execTake_cases (s : State) :
    execTake s = .next s ∨ ∃ (p : Port) (e : Entry), s.Takes p e (decodeTaken s e)
      ∧ execTake s = .next (takeEntry p e s) := by
  by_cases hc : s.inReset = true ∨ Config.memPlaces ≤ s.memQueue.length
  · left
    simp only [execTake, if_pos hc]
  · cases hn : nextTake s with
    | none =>
      left
      simp only [execTake, if_neg hc, hn]
    | some x =>
      obtain ⟨p, e⟩ := x
      right
      refine ⟨p, e, ⟨?_, ?_, hn, rfl⟩, by simp only [execTake, if_neg hc, hn]⟩
      · cases hr : s.inReset with
        | false => rfl
        | true => exact absurd (Or.inl hr) hc
      · exact Nat.lt_of_not_le fun hle => hc (Or.inr hle)

/-! ## The wrap report -/

/-- A take whose push does not wrap, or wraps a line without a pending WRAP commit, ends with the push. -/
theorem reportIfWrapped_none {i : LineNo} {wrapped : Bool} {s : State}
    (h : ¬(wrapped = true ∧ s.pendingOf i = some .wrap)) : reportIfWrapped i wrapped s = s := by
  unfold reportIfWrapped wrapReport
  cases wrapped with
  | false => rfl
  | true =>
    have hw : s.pendingOf i ≠ some .wrap := fun hw => h ⟨rfl, hw⟩
    simp [hw]

/-- A push that wraps a line with a pending WRAP commit brings that commit due. -/
theorem reportIfWrapped_due {i : LineNo} {s : State} (h : s.pendingOf i = some .wrap) :
    reportIfWrapped i true s = dueCommit .lineEngine i s := by
  simp [reportIfWrapped, wrapReport, h]

/-! ## The clash check -/

theorem mem_allLines (i : LineNo) : i ∈ allLines := by
  revert i
  decide

/-- Two ranges that meet do so in either order. -/
theorem Span.meets_comm (a b : Span) : Span.meets a b = Span.meets b a := by
  unfold Span.meets
  rw [max_comm, min_comm]

/-- The lowest line met is none exactly where no other LIVE line is met. -/
theorem lowestMet_eq_none_iff (s : State) (i : LineNo) (r : Span) :
    lowestMet s i r = none ↔ ∀ j : LineNo, j ≠ i → meetsLine s r j = false := by
  unfold lowestMet
  rw [List.find?_eq_none]
  constructor
  · intro h j hj
    have hx := h j (mem_allLines j)
    simpa [hj] using hx
  · intro h j _
    by_cases hj : j = i
    · simp [hj]
    · simp [h j hj]

/-- The clash check passes exactly where the image is a retirement or meets no other LIVE line. -/
theorem clashCheck_eq_none_iff (s : State) (i : LineNo) (d : Image) :
    clashCheck s i d = none ↔ d.isNone = true ∨ s.NoClash i d := by
  unfold clashCheck State.NoClash
  cases hn : d.isNone with
  | true => simp
  | false =>
    simp only [Bool.false_eq_true, if_false, false_or]
    constructor
    · intro h j hj hl
      cases hw : lowestMet s i d.windowSpan with
      | some k => simp [hw] at h
      | none =>
        cases hr : lowestMet s i d.ringSpan with
        | some k => simp [hw, hr] at h
        | none =>
          have h1 := (lowestMet_eq_none_iff s i _).mp hw j hj
          have h2 := (lowestMet_eq_none_iff s i _).mp hr j hj
          simp only [meetsLine, hl, Bool.true_and, Bool.or_eq_false_iff] at h1 h2
          simp [Image.spansMeet, h1, h2]
    · intro h
      have key : ∀ j : LineNo, j ≠ i → meetsLine s d.windowSpan j = false ∧ meetsLine s d.ringSpan j = false := by
        intro j hj
        cases hl : (s.line j).isLive with
        | false => simp [meetsLine, hl]
        | true =>
          have hx := h j hj hl
          simp only [Image.spansMeet, Bool.or_eq_false_iff] at hx
          simp [meetsLine, hl, hx]
      rw [(lowestMet_eq_none_iff s i _).mpr fun j hj => (key j hj).1,
        (lowestMet_eq_none_iff s i _).mpr fun j hj => (key j hj).2]

/-- The first element of a strictly rising list that passes a test is the one below which none passes. -/
theorem find?_of_rising {test : LineNo → Bool} {j : LineNo} (hj : test j = true)
    (hlow : ∀ k : LineNo, k < j → test k = false) :
    ∀ {l : List LineNo}, l.Pairwise (· < ·) → j ∈ l → l.find? test = some j
  | a :: more, hp, hm => by
    rcases List.mem_cons.mp hm with rfl | hin
    · simp [hj]
    · have ha : test a = false := hlow a ((List.pairwise_cons.mp hp).1 j hin)
      simpa [ha] using find?_of_rising hj hlow (List.pairwise_cons.mp hp).2 hin

/-- The lowest line that passes a test, found in the list of all lines. -/
theorem find?_allLines {test : LineNo → Bool} {j : LineNo} (hj : test j = true)
    (hlow : ∀ k : LineNo, k < j → test k = false) : allLines.find? test = some j :=
  find?_of_rising hj hlow (by decide) (mem_allLines j)

/-- A failing clash check, in the terms of R130, is what the check finds. -/
theorem clashCheck_of_clashesWith {s : State} {i j : LineNo} {d : Image} {reason : ClashReason}
    (h : s.ClashesWith i d reason j) : clashCheck s i d = some (reason, j) := by
  have test : ∀ (r : Span) (k : LineNo), (decide (k ≠ i) && meetsLine s r k) = true ↔ k ≠ i ∧ (s.line k).isLive = true
      ∧ (Span.meets r (s.line k).active.windowSpan = true ∨ Span.meets r (s.line k).active.ringSpan = true) := by
    intro r k
    simp [meetsLine]
  have low : ∀ (r : Span) (k : LineNo), ¬(k ≠ i ∧ (s.line k).isLive = true
      ∧ (Span.meets r (s.line k).active.windowSpan = true ∨ Span.meets r (s.line k).active.ringSpan = true)) →
      (decide (k ≠ i) && meetsLine s r k) = false :=
    fun r k hk => Bool.eq_false_iff.mpr fun hb => hk ((test r k).mp hb)
  obtain ⟨hkind, h⟩ := h
  have hn : d.isNone = false := by simpa [Image.isNone] using hkind
  cases reason with
  | windowClash =>
    have hw : lowestMet s i d.windowSpan = some j :=
      find?_allLines ((test _ j).mpr h.1) fun k hk => low _ k (h.2 k hk)
    simp [clashCheck, hn, hw]
  | ringClash =>
    have hw : lowestMet s i d.windowSpan = none :=
      List.find?_eq_none.mpr fun k _ => by rw [low _ k (h.1 k)]; decide
    have hr : lowestMet s i d.ringSpan = some j :=
      find?_allLines ((test _ j).mpr h.2.1) fun k hk => low _ k (h.2.2 k hk)
    simp [clashCheck, hn, hw, hr]

/-! ## Dealing with a commit -/

/-- The kind of a commit, in the terms of R132. -/
theorem commitKind_eq (l : Line) (d : Image) :
    (d.kind = 0 → commitKind l d = .retiring)
      ∧ (d.kind ≠ 0 → l.KeptBy d → commitKind l d = .soft) ∧ (d.kind ≠ 0 → ¬l.KeptBy d → commitKind l d = .hard) := by
  unfold commitKind Line.KeptBy
  refine ⟨fun h => by simp [Image.isNone, h], fun h hk => ?_, fun h hk => ?_⟩
  · have hn : d.isNone = false := by simpa [Image.isNone] using h
    simp [hn, hk]
  · have hn : d.isNone = false := by simpa [Image.isNone] using h
    simp only [hn, Bool.false_eq_true, if_false]
    rw [if_neg]
    intro hc
    simp only [Bool.and_eq_true, beq_iff_eq] at hc
    exact hk ⟨hc.1.1.1.1, hc.1.1.1.2, hc.1.1.2, hc.1.2, hc.2⟩

/-- Ending held entries in both intakes, in the terms of `State.HeldEnded`. -/
theorem heldEnded_of_endHeld {s t : State} {which : Entry → Bool}
    (h : ∀ q : Port, t.intake q = endHeld which (s.intake q)) : s.HeldEnded t which := by
  intro q
  rw [h q, endHeld_eq]
  congr 1
  apply List.map_congr_left
  intro x _
  by_cases hx : Entry.isHeld x = true ∧ which x = true
  · simp only [hx, Bool.and_self, if_true, and_self]
    unfold Entry.answered formAnswer
    cases x.access <;> rfl
  · rw [if_neg hx, if_neg]
    simpa using hx

/-- The entries a soft commit releases, in the terms of R92. -/
theorem intake_releaseByPolicy (s : State) (i : LineNo) (d : Image) (q : Port) :
    (releaseByPolicy i d s).intake q =
      { s.intake q with
        openList := (s.intake q).openList.map fun x =>
          if x.state = .parked
              ∧ ((Entry.parkedOp x = some (i, .pop) ∧ d.underrunPolicy ≠ 2)
                ∨ (Entry.parkedOp x = some (i, .push) ∧ d.overflowPolicy ≠ 2)) then
            { x with state := .released }
          else x } := by
  unfold releaseByPolicy
  by_cases hu : d.underrunPolicy = 2 <;> by_cases ho : d.overflowPolicy = 2 <;>
    simp only [hu, ho, if_true, if_false, intake_releaseParked, List.map_map] <;>
    first
    | (congr 1
       apply List.map_congr_left
       intro x _
       simp only [Function.comp, Entry.releasedFrom]
       by_cases hx : x.state = .parked
       · by_cases h1 : Entry.parkedOp x = some (i, .pop) <;> by_cases h2 : Entry.parkedOp x = some (i, .push) <;>
           simp_all
       · simp [hx])
    | simp

/-- A soft commit's releases change nothing but the intakes. -/
theorem releaseByPolicy_eq (s : State) (i : LineNo) (d : Image) :
    releaseByPolicy i d s =
      { s with portA := (releaseByPolicy i d s).portA, portB := (releaseByPolicy i d s).portB } := by
  unfold releaseByPolicy
  split <;> split <;> rfl

/-- What a soft commit leaves, in the terms of the statements. -/
theorem applyCommit_soft {s : State} {source : Source} {i : LineNo}
    (h : commitKind (s.line i) (s.stagedOf i) = .soft) : s.CommittedSoft (applyCommit source i s) i := by
  have ha : applyCommit source i s = recomputeUrgency (applySoft i (s.setPending i none)) := by
    unfold applyCommit
    simp [h]
  have hi := intake_releaseByPolicy ((s.setPending i none).setLine i
    { ((s.setPending i none).line i).committed .appliedSoft with active := (s.setPending i none).stagedOf i })
    i ((s.setPending i none).stagedOf i)
  rw [ha, applySoft, releaseByPolicy_eq]
  refine ⟨rfl, fun q => ?_, rfl⟩
  cases q
  · exact hi .A
  · exact hi .B

/-- What an abandoning commit leaves, in the terms of the statements: the record set, the held entries abandoned, urgency
recomputed. -/
theorem committedEmpty_of_abandon {s : State} {source : Source} {i : LineNo} {state : LineState} {active : Image}
    {cause : Cause} :
    s.CommittedEmpty
      (recomputeUrgency (abandon source cause (Entry.heldOn i)
        ((s.setPending i none).setLine i
          { state := state, active := active, head := 0, tail := 0, fill := 0, walkA := 0, walkB := 0,
            suspect := false, generation := (s.line i).generation + 1, lastOutcome := .appliedHard })))
      source i state active cause := by
  refine ⟨rfl, heldEnded_of_endHeld fun q => ?_, rfl, rfl⟩
  rw [recomputeUrgency_intake, intake_abandon, State.setLine_intake, State.setPending_intake]

/-- Everything a due commit can do: refused where the clash check fails, else applied as its kind. -/
theorem dueCommit_dealt (s : State) (source : Source) (i : LineNo) : s.CommitDealt (dueCommit source i s) source i := by
  have passes : ∀ h : (s.stagedOf i).isNone = true ∨ s.NoClash i (s.stagedOf i),
      dueCommit source i s = applyCommit source i s := by
    intro h
    unfold dueCommit
    rw [(clashCheck_eq_none_iff s i _).mpr h]
  refine ⟨fun reason j h => ?_, fun hk hc => ⟨fun hs => ?_, fun hs => ?_⟩, fun hk => ?_⟩
  · unfold dueCommit
    rw [clashCheck_of_clashesWith h]
    rfl
  · rw [passes (.inr hc)]
    exact applyCommit_soft ((commitKind_eq _ _).2.1 hk hs)
  · have h : commitKind (s.line i) (s.stagedOf i) = .hard := (commitKind_eq _ _).2.2 hk hs
    rw [passes (.inr hc), applyCommit]
    simp only [State.setPending_line, State.setPending_stagedOf, h]
    exact committedEmpty_of_abandon
  · have h : commitKind (s.line i) (s.stagedOf i) = .retiring := (commitKind_eq _ _).1 hk
    rw [passes (.inl (by simpa [Image.isNone] using hk)), applyCommit]
    simp only [State.setPending_line, State.setPending_stagedOf, h]
    exact committedEmpty_of_abandon

/-! ## Frames of the link -/

/-- A frame of at most 40 bytes, of a length its command acts on, is judged as its command says. -/
theorem endFrame_acts {c : LinkCode} {rest : List Byte} {judged : State → State} {s : State}
    (hp : s.porstnLow = false) (hn : rest.length + 1 ≤ Config.frameMax) (hl : LinkCode.lengthOk c rest = true) :
    endFrame c rest judged s = judged (shiftFrame (c.toByte :: rest) s) := by
  have hc : ¬(Config.frameMax < rest.length + 1 ∨ LinkCode.lengthOk c rest = false) := by
    rw [hl]
    simp
    omega
  simp only [endFrame, hp, Bool.false_eq_true, if_false, if_neg hc]

/-- A frame that is too long, or of a length its command does not act on, ends as BADFRAME. -/
theorem endFrame_bad {c : LinkCode} {rest : List Byte} {judged : State → State} {s : State}
    (hp : s.porstnLow = false) (hb : Config.frameMax < rest.length + 1 ∨ LinkCode.lengthOk c rest = false) :
    endFrame c rest judged s = setHeld (statusOnly .badframe) (shiftFrame (c.toByte :: rest) s) := by
  simp only [endFrame, hp, Bool.false_eq_true, if_false, if_pos hb]

/-- While PORSTN is low a frame does nothing. -/
theorem endFrame_low {c : LinkCode} {rest : List Byte} {judged : State → State} {s : State}
    (hp : s.porstnLow = true) : endFrame c rest judged s = s := by
  simp only [endFrame, hp, if_true]

/-- A line command whose frame is long enough acts on the line its line byte names. -/
theorem lineFrame_acts {c : LinkCode} {b : Byte} {args : List Byte} {act : LineNo → List Byte → State → State × Held}
    {s : State} {i : LineNo} (hp : s.porstnLow = false) (hn : args.length + 2 ≤ Config.frameMax)
    (hl : LinkCode.lengthOk c (b :: args) = true) (hb : lineOfByte b = some i) :
    lineFrame c (b :: args) act s = reply (act i args (shiftFrame (c.toByte :: b :: args) s)) := by
  unfold lineFrame
  rw [endFrame_acts hp (by simpa using Nat.lt_of_succ_le hn) hl]
  simp [hb]

/-- A line command whose line byte names no line ends as BADLINE. -/
theorem lineFrame_badline {c : LinkCode} {b : Byte} {args : List Byte}
    {act : LineNo → List Byte → State → State × Held} {s : State} (hp : s.porstnLow = false)
    (hn : args.length + 2 ≤ Config.frameMax) (hl : LinkCode.lengthOk c (b :: args) = true)
    (hb : lineOfByte b = none) :
    lineFrame c (b :: args) act s = setHeld (statusOnly .badline) (shiftFrame (c.toByte :: b :: args) s) := by
  unfold lineFrame
  rw [endFrame_acts hp (by simpa using Nat.lt_of_succ_le hn) hl]
  simp [hb]

/-- A part command whose frame is long enough and whose line byte is 0xFF acts. -/
theorem partFrame_acts {c : LinkCode} {args : List Byte} {act : List Byte → State → State × Held}
    {s : State} (hp : s.porstnLow = false) (hn : args.length + 2 ≤ Config.frameMax)
    (hl : LinkCode.lengthOk c (0xFF :: args) = true) :
    partFrame c (0xFF :: args) act s = reply (act args (shiftFrame (c.toByte :: 0xFF :: args) s)) := by
  unfold partFrame
  rw [endFrame_acts hp (by simpa using Nat.lt_of_succ_le hn) hl]
  simp

/-- A part command whose line byte is not 0xFF ends as BADLINE. -/
theorem partFrame_badline {c : LinkCode} {b : Byte} {args : List Byte} {act : List Byte → State → State × Held}
    {s : State} (hp : s.porstnLow = false) (hn : args.length + 2 ≤ Config.frameMax)
    (hl : LinkCode.lengthOk c (b :: args) = true) (hb : b ≠ 0xFF) :
    partFrame c (b :: args) act s = setHeld (statusOnly .badline) (shiftFrame (c.toByte :: b :: args) s) := by
  unfold partFrame
  rw [endFrame_acts hp (by simpa using Nat.lt_of_succ_le hn) hl]
  exact if_neg hb

/-- The line byte of a line names that line. -/
@[simp] theorem lineOfByte_lineNoByte (i : LineNo) : lineOfByte (lineNoByte i) = some i := by
  revert i
  decide

/-! ## The incident unit -/

/-- The newest record of a queue that ends in it. -/
theorem getLast?_concat (records : List Record) (r : Record) : (records ++ [r]).getLast? = some r := by
  simp

/-- What dealing with an incident can do: nothing, or coalesce, or append, or drop. -/
theorem deal_cases (u : IncidentUnit) (x : Incident) :
    (u.deal x = u ∧ u.enabled (Detail.kind x.detail) = false)
      ∨ (∃ r, u.records.getLast? = some r ∧ r.takes x = true ∧ u.deal x = u.coalesce r)
      ∨ (u.records.length < Config.incidentPlaces ∧ u.deal x = u.append x)
      ∨ (Config.incidentPlaces ≤ u.records.length ∧ u.deal x = u.dropOne) := by
  have room : u.appendOrDrop x = u.append x ∧ u.records.length < Config.incidentPlaces
      ∨ u.appendOrDrop x = u.dropOne ∧ Config.incidentPlaces ≤ u.records.length := by
    unfold IncidentUnit.appendOrDrop
    by_cases h : u.records.length < Config.incidentPlaces
    · left
      simp [h]
    · right
      simp [h, Nat.le_of_not_lt h]
  cases he : u.enabled (Detail.kind x.detail) with
  | false => simp [IncidentUnit.deal, he]
  | true =>
    right
    cases hl : u.records.getLast? with
    | none =>
      have hd : u.deal x = u.appendOrDrop x := by simp [IncidentUnit.deal, he, hl]
      rw [hd]
      rcases room with ⟨h1, h2⟩ | ⟨h1, h2⟩
      · exact .inr (.inl ⟨h2, h1⟩)
      · exact .inr (.inr ⟨h2, h1⟩)
    | some r =>
      cases ht : r.takes x with
      | true => exact .inl ⟨r, rfl, ht, by simp [IncidentUnit.deal, he, hl, ht]⟩
      | false =>
        have hd : u.deal x = u.appendOrDrop x := by simp [IncidentUnit.deal, he, hl, ht]
        rw [hd]
        rcases room with ⟨h1, h2⟩ | ⟨h1, h2⟩
        · exact .inr (.inl ⟨h2, h1⟩)
        · exact .inr (.inr ⟨h2, h1⟩)

/-- The oldest incident of a source is found behind incidents of other sources, which keep their order. -/
theorem pickHanded_of_split (source : Source) (x : Incident) (before after : List Handed)
    (h : ∀ y ∈ before, y.source ≠ source) :
    pickHanded source (before ++ { source := source, incident := x } :: after) = some (x, before ++ after) := by
  induction before with
  | nil => simp [pickHanded]
  | cons y ys ih =>
    have hy : y.source ≠ source := h y (List.mem_cons_self ..)
    have ih' := ih fun z hz => h z (List.mem_cons_of_mem _ hz)
    simp [pickHanded, hy, ih']

/-- Nothing is found where no incident is on its way from the source. -/
theorem pickHanded_eq_none {source : Source} {handed : List Handed} (h : ∀ y ∈ handed, y.source ≠ source) :
    pickHanded source handed = none := by
  induction handed with
  | nil => rfl
  | cons y ys ih =>
    have hy : y.source ≠ source := h y (List.mem_cons_self ..)
    have ih' := ih fun z hz => h z (List.mem_cons_of_mem _ hz)
    simp [pickHanded, hy, ih']

end Sys2Proof.Machine
end

