-- ==== Sys2Proof/WellFormed.lean ====
section
/-! DEFINITION. Which commands are well formed: the operand values a master, a memory or the supervisor can give. -/

namespace Sys2Proof

/-- Write data holds no byte beyond its size (R104: write data is `size` bytes). -/
def Access.fits (size : Size) : Access → Bool
  | .read => true
  | .write data => decide (data.toNat < 2 ^ (8 * size.bytes))

/-- A frame of the BADFRAME row: empty, longer than 40 bytes, or with an unknown code in byte 0 (R151). -/
def isBadFrame (bytes : List Byte) : Bool :=
  match bytes with
  | [] => true
  | code :: _ => decide (Config.frameMax < bytes.length) || (LinkCode.ofByte code).isNone

/-- A frame of a link command's own row, given from byte 1 on: at most 40 bytes in all (R151, check 2 comes first). -/
def isCommandFrame (rest : List Byte) : Bool := decide (rest.length + 1 ≤ Config.frameMax)

/-- A command whose operands are values its row can carry. -/
def Instr.wellFormed : Instr → Bool
  | .requestAcceptance _ access _ size => access.fits size
  | .take => true
  | .presentTransaction => true
  | .memoryAnswer _ _ => true
  | .answerDelivery _ => true
  | .tick => true
  | .expiry _ => true
  | .markEdge => true
  | .powerOnReset => true
  | .systemReset => true
  | .incidentArrival _ => true
  | .badframe bytes => isBadFrame bytes
  | .result rest => isCommandFrame rest
  | .identify rest => isCommandFrame rest
  | .stage rest => isCommandFrame rest
  | .readStaged rest => isCommandFrame rest
  | .readActive rest => isCommandFrame rest
  | .arm rest => isCommandFrame rest
  | .disarm rest => isCommandFrame rest
  | .mark rest => isCommandFrame rest
  | .flush rest => isCommandFrame rest
  | .queryLine rest => isCommandFrame rest
  | .queryPart rest => isCommandFrame rest
  | .engage rest => isCommandFrame rest
  | .disengage rest => isCommandFrame rest
  | .takeIncident rest => isCommandFrame rest
  | .setEnables rest => isCommandFrame rest
  | .clearOverflow rest => isCommandFrame rest
  | .clear rest => isCommandFrame rest
  | .systemResetRelease => true
  | .powerOnResetRelease => true

end Sys2Proof
end

