-- ==== Sys2Proof/Tests/Slice0.lean ====
section
/-! SUPPORT. The model's own tests, their expected results from the manual's worked examples, the ill-formed commands that
well-formedness refuses, and for every statement with hypotheses a witness that meets them. -/

namespace Sys2Proof.Tests

open Sys2Proof Sys2Proof.Machine

/-! ## Helpers -/

/-- The next state of an outcome, the reset state where there is none. -/
def after : Host.Outcome State Fault Refusal → State
  | .next s => s
  | .fault _ => State.reset
  | .refused _ => State.reset

/-- A LIVE line with these cursors, whose last commit was a hard one. -/
def liveLine (d : Image) (head tail fill walkA : Nat) : Line :=
  { state := .live, active := d, head := head, tail := tail, fill := fill, walkA := walkA, walkB := 0,
    suspect := false, generation := 1, lastOutcome := .appliedHard }

/-- The reset state ENGAGED, with line `i` as given and the port urgencies recomputed. -/
def engagedWith (i : LineNo) (l : Line) : State :=
  recomputeUrgency (setMode .engaged (State.reset.setLine i l))

/-- The state with one WAITING entry in port A's list, accepted at this moment. -/
def offers (access : Access) (addr : Addr) (size : Size) (s : State) : State :=
  s.setIntake .A ((s.intake .A).accept access addr size)

/-- That entry. -/
def offered (access : Access) (addr : Addr) (size : Size) : Entry := acceptedEntry 0 access addr size

/-- Section 3.8's line 3: DELAY, e = 4, s = 1, L = 8, T = 4, ring base 0x20001000; window base 0x00020000. -/
def delay3 (underrun amend : Byte) : Image :=
  { bytes := #v[1, 4, 1, 0, underrun, 0, 0, amend, 0, 0, 2, 0, 0, 16, 0, 32,
    8, 0, 4, 0, 0, 0, 0, 0, 1, 2, 3, 4, 5, 6, 7, 8] }

/-- Section 4.9's line 6: QUEUE, e = 2, s = 1, L = 4, T = 3, feeder B, W = 1, ring base 0x20002000, amend permit 1;
window base 0x00030000, stall limit 400. -/
def queue6 (underrun overflow : Byte) : Image :=
  { bytes := #v[2, 2, 1, 0, underrun, overflow, 2, 1, 0, 0, 3, 0, 0, 32, 0, 32,
    4, 0, 3, 0, 1, 0, 144, 1, 1, 2, 3, 4, 5, 6, 7, 8] }

/-- Line 3 with these cursors. -/
def onDelay (underrun amend : Byte) (head tail fill walkA : Nat) : State :=
  engagedWith 3 (liveLine (delay3 underrun amend) head tail fill walkA)

/-- Line 6 with these cursors. -/
def onQueue (underrun overflow : Byte) (head tail fill walkA : Nat) : State :=
  engagedWith 6 (liveLine (queue6 underrun overflow) head tail fill walkA)

/-- An entry in the given state, of class `cls`, whose access is a read of line 6's PUSH slot. -/
def entryIn (tag : Nat) (state : EntryState) (cls : Option EntryClass) : Entry :=
  { tag := tag, access := .read, addr := 0x30000, size := .two, state := state, cls := cls, answer := none }

/-- A pop of line 6 that is PARKED, and one that is RELEASED. -/
def parkedPop : Entry := entryIn 0 .parked (some (.operation 6 .pop))
def releasedPop : Entry := entryIn 0 .released (some (.operation 6 .pop))

/-- A push to line 6 that is RELEASED. -/
def releasedPush : Entry := { entryIn 0 .released (some (.operation 6 .push)) with access := .write 7 }

/-- The state with this open list and deadline on port A, and tag 8 the next to give. -/
def holding (entries : List Entry) (deadline : Option (BitVec 32)) (s : State) : State :=
  { s with portA := { openList := entries, deadline := deadline, nextTag := 8 } }

/-! ## Well-formedness refuses what no sender can give -/

theorem test_wellFormed_refuses_data_beyond_the_size :
    Instr.wellFormed (.requestAcceptance .A (.write 0x100) 0 .one) = false := by decide

theorem test_wellFormed_refuses_a_command_frame_as_badframe : Instr.wellFormed (.badframe [0x01, 0xFF]) = false := by
  decide

theorem test_wellFormed_refuses_a_command_frame_past_forty_bytes :
    Instr.wellFormed (.result (List.replicate 40 0)) = false := by decide

theorem test_wellFormed_admits_the_longest_command_frame :
    Instr.wellFormed (.result (List.replicate 39 0)) = true := by decide

/-! ## Reading commands -/

theorem test_no_word_spells_a_command : decodeTableWord 8 0x15 = none := by decide

/-- R150: bits travel most significant first, so 0x15 is shifted as 0001 0101. -/
theorem test_frame_bits_most_significant_first :
    frameOfBits [false, false, false, true, false, true, false, true, true, true] = [0x15] := by decide

theorem test_code_of_clear : LinkCode.ofByte 0x50 = some .clear := by decide
theorem test_unknown_code : LinkCode.ofByte 0x02 = none := by decide

/-! ## Section 2.8: the decoding of seventeen requests -/

/-- Section 2.8's descriptor of line 2. -/
def line2 : Image :=
  { bytes := #v[1, 4, 1, 1, 0, 0, 0, 0, 0, 0, 1, 0, 0, 0, 0, 32,
    64, 0, 8, 0, 0, 0, 0, 0, 1, 2, 3, 4, 5, 6, 7, 8] }

/-- Section 2.8's descriptor of line 5. -/
def line5 : Image :=
  { bytes := #v[2, 2, 1, 2, 0, 0, 0, 1, 64, 0, 1, 0, 0, 1, 0, 32,
    32, 0, 4, 0, 0, 0, 0, 0, 1, 2, 3, 4, 5, 6, 7, 8] }

/-- Section 2.8's lines 2 and 5, both LIVE, the part ENGAGED. -/
def section28 : State :=
  (engagedWith 2 (liveLine line2 0 0 0 0)).setLine 5
    (liveLine line5 0 0 0 0)

theorem test_section_2_8_reads :
    ([(0x10000, Size.four), (0x10010, .eight), (0x10016, .four), (0x1002C, .four), (0x1002C, .eight),
      (0x10030, .four), (0x1003E, .four), (0x10042, .two), (0x10040, .two), (0x20000004, .four),
      (0x200000FC, .eight)].map fun r => decodeRequest section28 .read r.1 r.2) =
    [.operation 2 .newestRead, .refused (.shape .wrongSize) 2, .refused (.shape .misaligned) 2,
      .operation 2 (.tapRead 7), .refused (.shape .straddle) 2, .plain, .refused (.shape .straddle) 5,
      .operation 5 .walkPeek, .operation 5 .pop, .plain, .refused (.guard .read) 5] := by decide

theorem test_section_2_8_writes :
    ([(0x10004, Size.four), (0x10008, .four), (0x10044, .two), (0x10046, .two), (0x20000004, .four),
      (0x20000200, .four)].map fun r => decodeRequest section28 (.write 3) r.1 r.2) =
    [.refused (.shape .amendDenied) 2, .refused (.shape .readOnlySlot) 2, .operation 5 .discard,
      .refused (.shape .readOnlySlot) 5, .refused (.guard .write) 2, .plain] := by decide

/-! ## One command at a time -/

theorem test_acceptance_appends :
    ((after (exec (.requestAcceptance .B .read 0x40 .four) State.reset)).portB.openList.map fun e => e.state)
      = [.waiting] := by decide

/-- Section 3.8, event 8: the walk amend with c = 1 writes position 1, at 0x20001004, and leaves walk A at 2. -/
theorem test_section_3_8_walk_amend :
    let t := after (exec .take (offers (.write 9) 0x20004 .four (onDelay 0 1 3 0 3 1)))
    (t.memQueue.map fun x => (x.addr, x.purpose), (t.line 3).walkA) = ([(0x20001004, .amend)], 2) := by decide

/-- Section 4.9, event 9: the push to the full queue displaces p1 at position 1. -/
theorem test_section_4_9_displace :
    let t := after (exec .take (offers (.write 9) 0x30000 .two (onQueue 0 1 1 1 4 0)))
    (t.memQueue.map fun x => x.addr, (t.line 6).head, (t.line 6).tail, (t.line 6).fill)
      = ([0x20002002], 2, 2, 4) := by decide

theorem test_presentTransaction :
    ((after (exec .presentTransaction (after (exec .take (offers .read 0x40 .four State.reset))))).memQueue.map
      fun x => x.presented) = [true] := by decide

/-- Section 6.7, event 6: an answer without an origin is discarded, even with ERROR. -/
theorem test_memoryAnswer_without_origin :
    let t := after (exec .take (offers .read 0x40 .four State.reset))
    (after (exec (.memoryAnswer .error 0) (after (exec .systemReset t)))).handed = [] := by decide

theorem test_memoryAnswer_makes_ready :
    let t := after (exec .take (offers .read 0x40 .two State.reset))
    ((after (exec (.memoryAnswer .okay 0x12345678) t)).portA.openList.map fun e => e.answer)
      = [some { status := .okay, readData := some 0x5678 }] := by decide

theorem test_answerDelivery_from_the_front_only :
    let s := holding [entryIn 0 .issued none, entryIn 1 .ready none] none State.reset
    (after (exec (.answerDelivery .A) s)).portA.openList.length = 2 := by decide

theorem test_tick_wraps : (after (exec .tick { State.reset with tickCount := 0xFFFFFFFF })).tickCount = 0 := by decide

/-- Section 5.8, event 3: at its deadline the parked pop ends, and TIMEOUT carries line, port and pop. -/
theorem test_expiry :
    let t := after (exec (.expiry .A) { holding [parkedPop] (some 1310) (onQueue 2 2 0 0 0 0) with tickCount := 1310 })
    (t.portA.deadline, t.handed.map fun h => (h.incident.line, h.incident.port, h.incident.detail))
      = (none, [(some 6, some .A, .timeout .pop)]) := by decide

/-- R126: the mark count goes from 65535 to 0. -/
theorem test_markEdge_wraps :
    (after (exec .markEdge { State.reset with commit := { State.reset.commit with markCount := 0xFFFF } })).commit.markCount
      = 0 := by decide

theorem test_powerOnReset : (after (exec .powerOnReset (onQueue 0 0 1 0 1 0))).engine.mode = .transparent := by decide

/-- Section 6.7: after a system reset line 6 is empty and Port B is urgent. -/
theorem test_systemReset_makes_the_feeder_urgent :
    let t := after (exec .systemReset (onQueue 0 0 3 0 3 0))
    ((t.line 6).fill, t.engine.urgentB, t.sysrstnLow) = (0, true, true) := by decide

theorem test_systemResetRelease :
    (after (exec .systemResetRelease { State.reset with sysrstnLow := true })).sysrstnLow = false := by decide

theorem test_powerOnResetRelease :
    (after (exec .powerOnResetRelease { State.reset with porstnLow := true })).porstnLow = false := by decide

/-- The newest record of section 8.10, sequence 18. -/
def record18 : Record :=
  { sequence := 18, occurrences := 1,
    incident := { line := some 3, port := some .A, addr := some 0x20004, detail := .underrun 2 2 } }

/-- Section 8.10's incident unit, with OVERRUN disabled and one record. -/
def section810 : IncidentUnit :=
  { records := [record18], overflow := false, enables := 0xFD, counter := 19, alertLow := true }

/-- The state with that incident unit and one incident of a take on its way. -/
def arriving (x : Incident) : State :=
  { State.reset with incidents := section810, handed := [{ source := .lineEngine, incident := x }] }

/-- An UNDERRUN of line 3 and this port. -/
def underrun3 (p : Port) : Incident := { line := some 3, port := some p, addr := none, detail := .underrun 3 3 }

/-- Section 8.10, arrival 1: the record counts two occurrences. -/
theorem test_section_8_10_coalesce :
    ((after (exec (.incidentArrival .lineEngine) (arriving (underrun3 .A)))).incidents.records.map
      fun r => (r.sequence, r.occurrences)) = [(18, 2)] := by decide

/-- Section 8.10, arrival 4: port B's incident is appended with number 19. -/
theorem test_section_8_10_append :
    let u := (after (exec (.incidentArrival .lineEngine) (arriving (underrun3 .B)))).incidents
    (u.records.map fun r => r.sequence, u.counter) = ([18, 19], 20) := by decide

/-! ## The management link -/

theorem test_badframe_unknown_code :
    (after (exec (.badframe [0x77, 0xFF]) State.reset)).link.held = { status := .badframe, bytes := [] } := by decide

theorem test_badframe_empty_keeps_the_held_result :
    (after (exec (.badframe []) (setHeld (okWith [7]) State.reset))).link.held = okWith [7] := by decide

/-- Section 9.7, frame 3: RESULT shifts out INVALID, 2, 0x01, 0x14. -/
theorem test_section_9_7_result :
    let s := setHeld { status := .invalid, bytes := [0x01, 0x14] } State.reset
    (after (exec (.result [0, 0, 0]) s)).link.frame.sdo = [0x04, 0x02, 0x01, 0x14] := by decide

/-- Section 10.1, step 1. -/
theorem test_identify :
    (after (exec (.identify [0xFF]) State.reset)).link.held = okWith [0x43, 0x16, 0x04, 0x02] := by decide

/-- Section 9.7's image: DELAY with W = 40 above L = 32. -/
def section97 : Image :=
  { bytes := #v[1, 4, 1, 0, 0, 0, 0, 0, 0, 0, 2, 0, 0, 64, 0, 32,
    32, 0, 8, 0, 40, 0, 0, 0, 1, 2, 3, 4, 5, 6, 7, 8] }

/-- Section 9.7, frame 2: ARM fails with FIELD at offset 20. -/
theorem test_section_9_7_arm_refused :
    (after (exec (.arm [3, 0]) (State.reset.setStaged 3 section97))).link.held
      = { status := .invalid, bytes := [0x01, 0x14] } := by decide

/-- Section 9.7, frame 4: two bytes staged at offset 20. -/
theorem test_section_9_7_stage :
    ((after (exec (.stage [3, 20, 2, 8, 0]) (State.reset.setStaged 3 section97))).stagedOf 3).lowWater = 8 := by decide

/-- Section 9.7: a seven-byte STAGE with count 2 is BADFRAME. -/
theorem test_section_9_7_stage_length :
    (after (exec (.stage [3, 20, 2, 8, 0, 0]) State.reset)).link.held.status = .badframe := by decide

theorem test_readStaged :
    ((after (exec (.readStaged [3]) (State.reset.setStaged 3 section97))).link.held.bytes)[20]? = some 40 := by decide

theorem test_readActive_of_an_idle_line :
    (after (exec (.readActive [3]) State.reset)).link.held.bytes = List.replicate 32 0 := by decide

/-- R137: ARM of a line with trigger WRAP after power-on reset fails with BADTRIGGER. -/
theorem test_arm_wrap_on_an_idle_line :
    (after (exec (.arm [3, 1]) State.reset)).link.held.status = .badtrigger := by decide

theorem test_disarm_notarmed : (after (exec (.disarm [3]) State.reset)).link.held.status = .notarmed := by decide

theorem test_disarm_cancels :
    ((after (exec (.disarm [3]) (State.reset.setPending 3 (some .mark)))).line 3).lastOutcome = .cancelled := by decide

/-- Section 10.1, step 7: an armed line is LIVE and empty with generation 1 after MARK. -/
theorem test_mark_applies :
    let t := after (exec (.mark [0xFF]) ((State.reset.setStaged 3 (delay3 0 1)).setPending 3 (some .mark)))
    (t.line 3).state = .live ∧ (t.line 3).generation = 1 ∧ (t.line 3).lastOutcome = .appliedHard := by decide

theorem test_flush_abandons :
    let t := after (exec (.flush [6]) (holding [parkedPop] (some 9) (onQueue 2 0 0 0 0 0)))
    (t.portA.openList.map fun e => e.state, t.handed.map fun h => h.incident.detail)
      = ([.ready], [.abandoned .flush]) := by decide

theorem test_flush_idle : (after (exec (.flush [6]) State.reset)).link.held.status = .notlive := by decide

/-- Section 9.7, frame 7: an IDLE line with a pending MARK commit. -/
theorem test_queryLine :
    (after (exec (.queryLine [3]) (State.reset.setPending 3 (some .mark)))).link.held.bytes
      = [0, 1, 0, 0, 0, 0xFF, 0, 0, 0, 0, 0, 0, 0, 0, 0, 0] := by decide

/-- R163: the result after power-on reset. -/
theorem test_queryPart :
    (after (exec (.queryPart [0xFF]) State.reset)).link.held.bytes
      = [0x00, 0x00, 0x00, 0x00, 0x00, 0xFF, 0x00, 0x00, 0x00] := by decide

theorem test_engage : (after (exec (.engage [0xFF]) State.reset)).engine.mode = .engaged := by decide

theorem test_disengage_badline :
    (after (exec (.disengage [0x03]) (onQueue 0 0 0 0 0 0))).link.held.status = .badline := by decide

theorem test_disengage :
    (after (exec (.disengage [0xFF]) (onQueue 0 0 0 0 0 0))).engine.mode = .transparent := by decide

/-- Section 10.4, frame 7: the REFUSED record's image. -/
theorem test_section_10_4_takeIncident :
    let r : Record := { sequence := 0, occurrences := 1, incident := refusedIncident 2 .ringClash 3 }
    (after (exec (.takeIncident [0xFF]) { State.reset with incidents := { section810 with records := [r] } })).link.held
      = okWith [0, 0, 0x37, 2, 1, 0, 0, 0, 0, 0x05, 0x03, 0x00] := by decide

theorem test_takeIncident_empty : (after (exec (.takeIncident [0xFF]) State.reset)).link.held.status = .empty := by
  decide

theorem test_setEnables : (after (exec (.setEnables [0xFF, 0x0F]) State.reset)).incidents.enables = 0x0F := by decide

/-- R147: CLEAR_OVERFLOW with the queue empty releases ALERT. -/
theorem test_clearOverflow :
    let u : IncidentUnit := { section810 with records := [], overflow := true }
    (after (exec (.clearOverflow [0xFF]) { State.reset with incidents := u })).incidents.alertLow = false := by decide

theorem test_clear :
    let t := after (exec (.clear [0xFF]) (onQueue 0 0 1 0 1 0))
    ((t.line 6).state, (t.line 6).generation, t.engine.mode) = (.idle, 1, .engaged) := by decide

theorem test_step_idles_on_an_empty_queue : (after (step State.reset)).pending = [] := by decide

theorem test_step_runs_the_front_command :
    (after (step { State.reset with pending := [.tick, .take] })).pending = [.take] := by decide

/-! ## Witnesses: the hypotheses of each statement are met -/

theorem witness_StepRunsFrontCommand :
    ({ State.reset with pending := [.tick, .take] } : State).pending = .tick :: [.take] ∧ State.reset.pending = [] := by
  decide

theorem witness_CommandsLeaveTheQueueAlone : ∃ t, exec .tick State.reset = .next t := ⟨_, rfl⟩

theorem witness_AcceptanceAppendsWaitingEntry :
    State.reset.inReset = false ∧ (State.reset.intake .A).openList.length < 4
      ∧ (holding [releasedPop, releasedPop, releasedPop] none State.reset |>.intake .A).openList.length < 4 := by decide

theorem witness_AcceptanceWaitsWhileFullOrInReset :
    ({ State.reset with sysrstnLow := true } : State).inReset = true
      ∧ 4 ≤ (holding [releasedPop, releasedPop, releasedPop, releasedPop] none State.reset |>.intake .A).openList.length
      := by decide

theorem witness_DeliveryRemovesOnlyAReadyFront :
    (holding [entryIn 0 .ready none] none State.reset |>.intake .A).openList = entryIn 0 .ready none :: []
      ∧ (entryIn 0 .ready none).state = .ready := by decide

theorem witness_DeliveryRemovesOnlyAReadyFront_other :
    ∀ (e : Entry) (more : List Entry), (State.reset.intake .A).openList = e :: more → e.state ≠ .ready := by
  intro e more h
  cases h

theorem witness_ExpiryEndsTheHeldEntry :
    let s : State := { holding [releasedPush] (some 7) State.reset with tickCount := 7 }
    (s.intake .A).openList = [] ++ releasedPush :: [] ∧ (∀ x ∈ ([] : List Entry) ++ [], Entry.isHeld x = false)
      ∧ Entry.isHeld releasedPush = true
      ∧ Entry.parkedOp releasedPush = some (6, .push) ∧ (s.intake .A).deadline = some s.tickCount := by decide

theorem witness_ExpiryWaitsForTheDeadline :
    (State.reset.intake .A).deadline = none
      ∧ (holding [parkedPop] (some 1) State.reset |>.intake .A).deadline
        = some (State.reset.tickCount + BitVec.ofNat 32 1)
      ∧ (holding [parkedPop] (some 65535) State.reset |>.intake .A).deadline
        = some (State.reset.tickCount + BitVec.ofNat 32 65535) := by decide

/-- The four lists of `OfferIsTheNextTakeableEntry`: with a PARKED entry, with a RELEASED, with a WAITING, with none. -/
theorem witness_OfferIsTheNextTakeableEntry :
    (∃ e ∈ [parkedPop], e.state = .parked) ∧ (∀ e ∈ [releasedPop], e.state ≠ .parked) ∧ releasedPop.state = .released
      ∧ (∀ e ∈ [entryIn 0 .waiting none], e.state ≠ .parked ∧ e.state ≠ .released)
      ∧ (entryIn 0 .waiting none).state = .waiting
      ∧ (∀ e ∈ [entryIn 0 .issued none], e.state ≠ .parked ∧ e.state ≠ .released ∧ e.state ≠ .waiting) := by decide

/-- Both ports offer, or one, or neither; the urgencies and the last-chosen port take every value. -/
def contending (a b ua ub : Bool) (last : Port) : State :=
  let w : Intake := { openList := [entryIn 0 .waiting none], deadline := none, nextTag := 1 }
  let s := State.reset
  { s with
    portA := if a then w else s.portA, portB := if b then w else s.portB,
    engine := { s.engine with urgentA := ua, urgentB := ub, lastChosen := last } }

theorem witness_ArbiterChoosesByUrgencyThenAlternation :
    (∀ ua ub : Bool, (contending true true ua ub .A).portA.offer = some (entryIn 0 .waiting none)
      ∧ (contending true true ua ub .B).portB.offer = some (entryIn 0 .waiting none)
      ∧ (contending true true ua ub .B).engine.urgentA = ua ∧ (contending true true ua ub .B).engine.urgentB = ub)
    ∧ (contending true false false false .A).portB.offer = none
    ∧ (contending false true false false .A).portA.offer = none
    ∧ (contending false false false false .A).portA.offer = none := by decide

/-- A take of a plain read in TRANSPARENT mode, with a full open list ahead of it answered. -/
theorem witness_PlainEntryIsForwardedUnchanged :
    (offers .read 0x40 .four State.reset).Takes .A (offered .read 0x40 .four) .plain
      ∧ State.reset.engine.mode = .transparent ∧ (offered .read 0x40 .four).state = .waiting := by
  unfold State.Takes
  decide

theorem witness_EveryTakeIsBounded :
    (offers .read 0x40 .four State.reset).Takes .A (offered .read 0x40 .four) .plain
      ∧ ({ State.reset with sysrstnLow := true } : State).inReset = true ∧ nextTake State.reset = none
      ∧ 8 ≤ ({ State.reset with memQueue := List.replicate 8 (plainTransaction .A parkedPop) } : State).memQueue.length := by
  unfold State.Takes
  decide

/-- Section 2.8, request 9: the range meets line 5's window from below. -/
theorem witness_StraddleChargesLowestWindowMet :
    section28.engine.mode = .engaged ∧ (section28.line 5).isLive = true
      ∧ Span.meets (requestSpan 0x1003E .four) (section28.line 5).active.windowSpan = true
      ∧ (∀ j : LineNo, j < 5 → (section28.line j).isLive = true →
        Span.meets (requestSpan 0x1003E .four) (section28.line j).active.windowSpan = false)
      ∧ (∀ j : LineNo, (section28.line j).isLive = true →
        Span.inside (requestSpan 0x1003E .four) (section28.line j).active.windowSpan = false) := by decide

/-- Section 2.8: the last tap of line 2, at the end of its window, a misaligned and a wrong-size access before it, and
each index of line 5. -/
theorem witness_WindowAccessDecodesByIndex :
    let meets := fun (i : LineNo) (addr : Addr) (size : Size) =>
      section28.engine.mode = .engaged ∧ (section28.line i).isLive = true
        ∧ Span.inside (requestSpan addr size) (section28.line i).active.windowSpan = true
        ∧ ∀ j : LineNo, j ≠ i → (section28.line j).isLive = true →
          Span.meets (requestSpan addr size) (section28.line j).active.windowSpan = false
    (meets 2 0x1002C .four ∧ (0x1002C - line2.windowBase) % line2.elemSize = 0
      ∧ Size.four.bytes = line2.elemSize ∧ (0x1002C - line2.windowBase) / line2.elemSize = 4 + 7)
    ∧ (meets 2 0x10010 .eight ∧ (0x10010 - line2.windowBase) % line2.elemSize = 0 ∧ Size.eight.bytes ≠ line2.elemSize)
    ∧ (meets 2 0x10016 .four ∧ (0x10016 - line2.windowBase) % line2.elemSize ≠ 0)
    ∧ (∀ k : Fin 5, meets 5 (BitVec.ofNat 32 (0x10040 + 2 * k.val)) .two
      ∧ (0x10040 + 2 * k.val - line5.windowBase) / line5.elemSize = k.val) := by decide

/-- Section 2.8, requests 8 and 16: no ring forbids, and line 5's ring forbids where line 2's permits. -/
theorem witness_GuardDecidesPlainAccess :
    section28.engine.mode = .engaged
    ∧ (∀ j : LineNo, (section28.line j).isLive = true →
      Span.meets (requestSpan 0x200000FC .eight) (section28.line j).active.windowSpan = false)
    ∧ (section28.line 5).isLive = true
    ∧ Span.meets (requestSpan 0x200000FC .eight) (section28.line 5).active.ringSpan = true
    ∧ 2 ≤ (section28.line 5).active.guard ∧ ¬2 ≤ (section28.line 2).active.guard
    ∧ (∀ j : LineNo, ¬((section28.line j).isLive = true
      ∧ Span.meets (requestSpan 0x10030 .four) (section28.line j).active.ringSpan = true)) := by decide

theorem witness_RefusalAnswersErrorAtTheTake :
    (offers .read 0x10016 .four section28).Takes .A (offered .read 0x10016 .four) (.refused (.shape .misaligned) 2)
    ∧ (offers .read 0x20000100 .four section28).Takes .A (offered .read 0x20000100 .four)
      (.refused (.guard .read) 5) := by
  unfold State.Takes
  decide

/-- A push at the last position with no pending commit, and one to a full line. -/
theorem witness_DelayPushWritesAtHead :
    let s := offers (.write 9) 0x20000 .four (onDelay 0 1 7 7 8 0)
    s.Takes .A (offered (.write 9) 0x20000 .four) (.operation 3 .push) ∧ (s.line 3).active.isQueue = false
      ∧ ¬((s.line 3).head + 1 = (s.line 3).L ∧ s.pendingOf 3 = some .wrap) := by
  unfold State.Takes
  decide

/-- A wrapping push with a pending WRAP commit whose image is the active descriptor. -/
theorem witness_WrapAppliesSoftCommitInTheTake :
    let s := ((offers (.write 9) 0x20000 .four (onDelay 0 1 7 0 7 0)).setStaged 3 (delay3 1 1)).setPending 3 (some .wrap)
    s.Takes .A (offered (.write 9) 0x20000 .four) (.operation 3 .push) ∧ (s.line 3).active.kind = 1
      ∧ (s.line 3).isLive = true ∧ (s.line 3).head + 1 = (s.line 3).L ∧ s.pendingOf 3 = some .wrap
      ∧ (s.stagedOf 3).kind = 1 ∧ (s.stagedOf 3).elemSize = (s.line 3).active.elemSize
      ∧ (s.stagedOf 3).ringBase = (s.line 3).active.ringBase
      ∧ (s.stagedOf 3).ringLength = (s.line 3).active.ringLength ∧ s.NoClash 3 (s.stagedOf 3) := by
  unfold State.Takes State.NoClash
  decide

/-- A wrapping enqueue, displace and DELAY push, each with a pending WRAP commit: a soft, a retiring and a clashing
one. -/
theorem witness_WrapAppliesSoftCommitInTheTake_stored :
    let a := ((offers (.write 9) 0x30000 .two (onQueue 2 2 3 1 2 0)).setStaged 6 (queue6 0 2)).setPending 6 (some .wrap)
    let b := (offers (.write 9) 0x30000 .two (onQueue 2 1 3 3 4 0)).setPending 6 (some .wrap)
    let c := ((((offers (.write 9) 0x20000 .four (onDelay 0 1 7 0 7 0)).setLine 6
      (liveLine (queue6 0 0) 0 0 0 0)).setStaged 3 (queue6 0 0))).setPending 3 (some .wrap)
    (a.Takes .A (offered (.write 9) 0x30000 .two) (.operation 6 .push) ∧ (a.line 6).head + 1 = (a.line 6).L
      ∧ a.pendingOf 6 = some .wrap ∧ (a.line 6).fill < (a.line 6).L)
    ∧ (b.Takes .A (offered (.write 9) 0x30000 .two) (.operation 6 .push) ∧ (b.line 6).head + 1 = (b.line 6).L
      ∧ b.pendingOf 6 = some .wrap ∧ (b.line 6).fill = (b.line 6).L ∧ (b.line 6).active.overflowPolicy = 1
      ∧ (b.stagedOf 6).kind = 0)
    ∧ c.Takes .A (offered (.write 9) 0x20000 .four) (.operation 3 .push) ∧ (c.line 3).head + 1 = (c.line 3).L
    ∧ c.pendingOf 3 = some .wrap ∧ (c.line 3).active.isQueue = false
    ∧ c.ClashesWith 3 (c.stagedOf 3) .windowClash 6 := by
  unfold State.Takes State.ClashesWith
  decide

/-- The four forms, each with the greatest valid distance of its fill. -/
theorem witness_ValidReferenceReachesItsPosition :
    let a := offers .read 0x20000 .four (onDelay 0 1 1 0 1 0)
    let b := offers .read 0x20014 .four (onDelay 0 1 2 0 2 0)
    let c := offers .read 0x3000C .two (onQueue 0 0 3 0 3 0)
    let d := offers (.write 5) 0x3000C .two (onQueue 0 0 3 0 3 0)
    (a.Takes .A (offered .read 0x20000 .four) (.operation 3 .newestRead)
      ∧ 0 * (a.line 3).active.spacing < (a.line 3).fill)
    ∧ (b.Takes .A (offered .read 0x20014 .four) (.operation 3 (.tapRead 1))
      ∧ 1 * (b.line 3).active.spacing < (b.line 3).fill)
    ∧ (c.Takes .A (offered .read 0x3000C .two) (.operation 6 (.tapPeek 2))
      ∧ 2 * (c.line 6).active.spacing < (c.line 6).fill)
    ∧ d.Takes .A (offered (.write 5) 0x3000C .two) (.operation 6 (.tapAmend 2))
    ∧ 2 * (d.line 6).active.spacing < (d.line 6).fill := by
  unfold State.Takes
  decide

/-- The four forms, each with the least distance that is not below fill. -/
theorem witness_UnderrunIsAnsweredByPolicy :
    let a := offers .read 0x20000 .four (onDelay 1 1 0 0 0 0)
    let b := offers .read 0x20014 .four (onDelay 0 1 1 0 1 0)
    let c := offers .read 0x3000C .two (onQueue 2 0 2 0 2 0)
    let d := offers (.write 5) 0x3000C .two (onQueue 2 0 2 0 2 0)
    (a.Takes .A (offered .read 0x20000 .four) (.operation 3 .newestRead)
      ∧ (a.line 3).fill ≤ 0 * (a.line 3).active.spacing)
    ∧ (b.Takes .A (offered .read 0x20014 .four) (.operation 3 (.tapRead 1))
      ∧ (b.line 3).fill ≤ 1 * (b.line 3).active.spacing)
    ∧ (c.Takes .A (offered .read 0x3000C .two) (.operation 6 (.tapPeek 2))
      ∧ (c.line 6).fill ≤ 2 * (c.line 6).active.spacing)
    ∧ d.Takes .A (offered (.write 5) 0x3000C .two) (.operation 6 (.tapAmend 2))
    ∧ (d.line 6).fill ≤ 2 * (d.line 6).active.spacing := by
  unfold State.Takes
  decide

/-- The three walk accesses; the cursor 3 of line 3 is valid with fill 4 and under-runs with fill 3. -/
theorem witness_WalkAccessAdvancesOwnCursor :
    let a := offers .read 0x20004 .four (onDelay 0 1 4 0 4 3)
    let b := offers (.write 5) 0x20004 .four (onDelay 0 1 3 0 3 3)
    (a.Takes .A (offered .read 0x20004 .four) (.operation 3 .walkRead)
      ∧ (a.line 3).walkA * (a.line 3).active.spacing < (a.line 3).fill)
    ∧ (b.Takes .A (offered (.write 5) 0x20004 .four) (.operation 3 .walkAmend)
      ∧ (b.line 3).fill ≤ (b.line 3).walkA * (b.line 3).active.spacing)
    ∧ (offers .read 0x30002 .two (onQueue 0 0 1 0 1 1)).Takes .A (offered .read 0x30002 .two)
      (.operation 6 .walkPeek) := by
  unfold State.Takes
  decide

/-- A level read, and a generation read without and with a pending commit. -/
theorem witness_LevelAndGenerationReadsAnswerAtTheTake :
    let a := offers .read 0x20008 .four (onDelay 0 1 2 0 2 0)
    let b := offers .read 0x30006 .two (onQueue 0 0 2 0 2 0)
    let c := b.setPending 6 (some .mark)
    (a.Takes .A (offered .read 0x20008 .four) (.operation 3 .levelRead) ∧ 2 = (a.line 3).fill)
    ∧ (b.Takes .A (offered .read 0x30006 .two) (.operation 6 .generationRead) ∧ b.pendingOf 6 = none
      ∧ 1 = (b.line 6).generation.toNat)
    ∧ c.Takes .A (offered .read 0x30006 .two) (.operation 6 .generationRead) ∧ c.pendingOf 6 ≠ none
    ∧ 257 = (c.line 6).generation.toNat + 256 := by
  unfold State.Takes
  decide

/-- The push that fills the queue and wraps, with no pending commit. -/
theorem witness_EnqueueWritesAtHeadAndReleasesPops :
    let s := offers (.write 9) 0x30000 .two (onQueue 2 2 3 0 3 0)
    s.Takes .A (offered (.write 9) 0x30000 .two) (.operation 6 .push) ∧ (s.line 6).active.isQueue = true
      ∧ (s.line 6).fill < (s.line 6).L ∧ ¬((s.line 6).head + 1 = (s.line 6).L ∧ s.pendingOf 6 = some .wrap) := by
  unfold State.Takes
  decide

/-- A full queue under DROP and under ERROR. -/
theorem witness_FullQueueDropsOrErrors :
    let a := offers (.write 9) 0x30000 .two (onQueue 0 0 0 0 4 0)
    let b := offers (.write 9) 0x30000 .two (onQueue 0 3 0 0 4 0)
    (a.Takes .A (offered (.write 9) 0x30000 .two) (.operation 6 .push) ∧ (a.line 6).active.isQueue = true
      ∧ (a.line 6).L ≤ (a.line 6).fill ∧ (a.line 6).active.overflowPolicy = 0)
    ∧ b.Takes .A (offered (.write 9) 0x30000 .two) (.operation 6 .push) ∧ (b.line 6).active.isQueue = true
    ∧ (b.line 6).L ≤ (b.line 6).fill ∧ (b.line 6).active.overflowPolicy = 3 := by
  unfold State.Takes
  decide

theorem witness_FullQueueReplacesOldest :
    let s := offers (.write 9) 0x30000 .two (onQueue 0 1 3 3 4 0)
    s.Takes .A (offered (.write 9) 0x30000 .two) (.operation 6 .push) ∧ (s.line 6).active.isQueue = true
      ∧ (s.line 6).fill = (s.line 6).L ∧ (s.line 6).active.overflowPolicy = 1
      ∧ ¬((s.line 6).head + 1 = (s.line 6).L ∧ s.pendingOf 6 = some .wrap) := by
  unfold State.Takes
  decide

/-- A push to the full queue and a pop from the empty one, both under STALL. -/
theorem witness_StallParksTheEntry :
    let a := offers (.write 9) 0x30000 .two (onQueue 2 2 0 0 4 0)
    let b := offers .read 0x30000 .two (onQueue 2 2 0 0 0 0)
    (a.Takes .A (offered (.write 9) 0x30000 .two) (.operation 6 .push)
      ∧ (offered (.write 9) 0x30000 .two).state = .waiting ∧ (a.line 6).active.isQueue = true
      ∧ (a.line 6).L ≤ (a.line 6).fill ∧ (a.line 6).active.overflowPolicy = 2)
    ∧ b.Takes .A (offered .read 0x30000 .two) (.operation 6 .pop) ∧ (offered .read 0x30000 .two).state = .waiting
    ∧ (b.line 6).fill = 0 ∧ (b.line 6).active.underrunPolicy = 2 := by
  unfold State.Takes
  decide

/-- A RELEASED push that finds the queue full again and a RELEASED pop that finds it empty again. -/
theorem witness_RetakeKeepsClassAndDeadline :
    let a := holding [releasedPush] (some 9) (onQueue 2 2 0 0 4 0)
    let b := holding [releasedPop] (some 9) (onQueue 2 2 0 0 0 0)
    (a.inReset = false ∧ a.memQueue.length < 8 ∧ nextTake a = some (.A, releasedPush)
      ∧ releasedPush.state = .released ∧ releasedPush.cls = some (.operation 6 .push)
      ∧ (a.line 6).active.isQueue = true ∧ (a.line 6).L ≤ (a.line 6).fill ∧ (a.line 6).active.overflowPolicy = 2)
    ∧ b.inReset = false ∧ b.memQueue.length < 8 ∧ nextTake b = some (.A, releasedPop)
    ∧ releasedPop.state = .released ∧ releasedPop.cls = some (.operation 6 .pop)
    ∧ (b.line 6).fill = 0 ∧ (b.line 6).active.underrunPolicy = 2 := by decide

/-- The last element of a queue, popped. -/
theorem witness_PopReadsAtTailAndReleasesPushes :
    let s := offers .read 0x30000 .two (onQueue 2 2 0 3 1 0)
    s.Takes .A (offered .read 0x30000 .two) (.operation 6 .pop) ∧ 0 < (s.line 6).fill := by
  unfold State.Takes
  decide

/-- An empty queue under FILL and under ERROR. -/
theorem witness_EmptyPopUnderruns :
    let a := offers .read 0x30000 .two (onQueue 0 0 0 0 0 0)
    let b := offers .read 0x30000 .two (onQueue 1 0 0 0 0 0)
    (a.Takes .A (offered .read 0x30000 .two) (.operation 6 .pop) ∧ (a.line 6).fill = 0
      ∧ (a.line 6).active.underrunPolicy ≤ 1)
    ∧ b.Takes .A (offered .read 0x30000 .two) (.operation 6 .pop) ∧ (b.line 6).fill = 0
    ∧ (b.line 6).active.underrunPolicy ≤ 1 := by
  unfold State.Takes
  decide

/-- A discard of more than the queue holds, and one of 0. -/
theorem witness_DiscardRemovesFromTheOldestEnd :
    let a := offers (.write 9) 0x30004 .two (onQueue 0 0 3 0 3 0)
    let b := offers (.write 0) 0x30004 .two (onQueue 0 0 3 0 3 0)
    (a.Takes .A (offered (.write 9) 0x30004 .two) (.operation 6 .discard)
      ∧ (offered (.write 9) 0x30004 .two).access = .write 9 ∧ 0 < min (9 : Data).toNat (a.line 6).fill)
    ∧ b.Takes .A (offered (.write 0) 0x30004 .two) (.operation 6 .discard)
    ∧ (offered (.write 0) 0x30004 .two).access = .write 0 ∧ min (0 : Data).toNat (b.line 6).fill = 0 := by
  unfold State.Takes
  decide

/-- A transaction of port A's entry tagged 0. -/
def readTransaction : Transaction := plainTransaction .A (entryIn 0 .issued (some .plain))

theorem witness_PresentingGoesInQueueOrder :
    let x := { readTransaction with presented := true }
    ({ State.reset with memQueue := [x, readTransaction] } : State).memQueue = [x] ++ readTransaction :: []
      ∧ (∀ y ∈ [x], y.presented = true) ∧ readTransaction.presented = false := by decide

theorem witness_MemoryAnswerMakesTheOriginReady :
    let s : State := { holding [entryIn 0 .issued (some .plain)] none State.reset with memQueue := [readTransaction] }
    s.memQueue = readTransaction :: [] ∧ readTransaction.origin = some { port := .A, tag := 0 }
      ∧ (s.intake .A).openList = [] ++ entryIn 0 .issued (some .plain) :: []
      ∧ (entryIn 0 .issued (some .plain)).tag = 0 ∧ (∀ y ∈ ([] : List Entry) ++ [], y.tag ≠ 0) := by decide

theorem witness_AnswersWithoutOriginAreDiscarded :
    (readTransaction.orphaned).origin = none ∧ State.reset.memQueue = [] := by decide

theorem witness_MarkCountsAndDealsWithMarkCommits :
    ({ State.reset with sysrstnLow := true } : State).inReset = true ∧ State.reset.inReset = false
      ∧ (State.reset.setPending 3 (some .mark)).pendingOf 3 = some .mark
      ∧ (∀ i : LineNo, State.reset.pendingOf i ≠ some .mark) := by decide

/-- A commit pending with trigger MARK that is soft, one that makes an IDLE line LIVE, and one that retires a line. -/
theorem witness_MarkCountsAndDealsWithMarkCommits_applied :
    let a := ((onQueue 2 2 0 0 0 0).setStaged 6 (queue6 0 2)).setPending 6 (some .mark)
    let b := (State.reset.setStaged 3 (delay3 0 1)).setPending 3 (some .mark)
    let c := (onQueue 2 2 0 0 0 0).setPending 6 (some .mark)
    (a.inReset = false ∧ a.pendingOf 6 = some .mark ∧ (a.stagedOf 6).kind ≠ 0 ∧ a.NoClash 6 (a.stagedOf 6)
      ∧ (a.line 6).KeptBy (a.stagedOf 6))
    ∧ (b.inReset = false ∧ b.pendingOf 3 = some .mark ∧ (b.stagedOf 3).kind ≠ 0 ∧ b.NoClash 3 (b.stagedOf 3)
      ∧ ¬(b.line 3).KeptBy (b.stagedOf 3))
    ∧ c.inReset = false ∧ c.pendingOf 6 = some .mark ∧ (c.stagedOf 6).kind = 0 := by
  unfold Line.KeptBy State.NoClash
  decide

theorem witness_link_commands : State.reset.porstnLow = false ∧ (List.replicate 38 (0 : Byte)).length ≤ 38 := by decide

theorem witness_MarkCommandMakesTheSameMark :
    State.reset.porstnLow = false ∧ (List.replicate 38 (0 : Byte)).length ≤ 38 := witness_link_commands

/-- Line 3's image staged for line 4 meets line 3's window. -/
def clashing : State := (onDelay 0 1 0 0 0 0).setStaged 4 (delay3 0 1)

theorem witness_ClashRefusesTheCommit :
    clashing.ClashesWith 4 (clashing.stagedOf 4) .windowClash 3 ∧ clashing.porstnLow = false
      ∧ clashing.pendingOf 4 = none ∧ imageFault (clashing.stagedOf 4) = none
      ∧ (clashing.setPending 4 (some .mark)).inReset = false
      ∧ (clashing.setPending 4 (some .mark)).pendingOf 4 = some .mark
      ∧ (∀ k : LineNo, k ≠ 4 → (clashing.setPending 4 (some .mark)).pendingOf k ≠ some .mark) := by
  unfold State.ClashesWith
  decide

/-- R127: of two IDLE lines with one image pending at one mark, the lower is applied and the higher meets it. -/
theorem test_mark_checks_against_the_lower_lines_outcome :
    let s := ((State.reset.setStaged 3 (delay3 0 1)).setStaged 4 (delay3 0 1)).setPending 3 (some .mark)
    let t := after (exec .markEdge (s.setPending 4 (some .mark)))
    ((t.line 3).lastOutcome, (t.line 4).lastOutcome, t.handed.map fun h => h.incident.line)
      = (.appliedHard, .refused .windowClash 3, [some 4]) := by decide

/-- An image whose window lies elsewhere and whose ring is line 3's. -/
def ringOnly : Image :=
  { bytes := #v[1, 4, 1, 0, 0, 0, 0, 1, 0, 0, 9, 0, 0, 16, 0, 32,
    8, 0, 4, 0, 0, 0, 0, 0, 1, 2, 3, 4, 5, 6, 7, 8] }

theorem witness_ClashRefusesTheCommit_ring :
    let s := (onDelay 0 1 0 0 0 0).setStaged 4 ringOnly
    s.ClashesWith 4 (s.stagedOf 4) .ringClash 3 := by
  unfold State.ClashesWith
  decide

/-- A MARK commit of an IDLE line, and a WRAP commit of a LIVE one. -/
theorem witness_ArmMakesTheCommitPending :
    let s := State.reset.setStaged 3 (delay3 0 1)
    let t := (onDelay 0 1 0 0 0 0).setStaged 3 (delay3 0 1)
    (s.porstnLow = false ∧ s.pendingOf 3 = none ∧ imageFault (s.stagedOf 3) = none ∧ (s.stagedOf 3).kind ≠ 0)
    ∧ t.porstnLow = false ∧ t.pendingOf 3 = none ∧ imageFault (t.stagedOf 3) = none ∧ (t.line 3).isLive = true := by
  decide

theorem witness_ImmediateSoftCommitKeepsTheContents :
    let s := (onQueue 2 2 0 0 0 0).setStaged 6 (queue6 0 2)
    s.porstnLow = false ∧ s.pendingOf 6 = none ∧ imageFault (s.stagedOf 6) = none ∧ (s.stagedOf 6).kind ≠ 0
      ∧ (s.line 6).KeptBy (s.stagedOf 6) ∧ s.NoClash 6 (s.stagedOf 6) := by
  unfold Line.KeptBy State.NoClash
  decide

/-- A hard commit of an IDLE line, and the retirement of a LIVE one. -/
theorem witness_ImmediateHardOrRetiringCommitEmptiesTheLine :
    let s := State.reset.setStaged 3 (delay3 0 1)
    let t := onQueue 2 2 0 0 0 0
    (s.pendingOf 3 = none ∧ imageFault (s.stagedOf 3) = none ∧ (s.stagedOf 3).kind ≠ 0
      ∧ ¬(s.line 3).KeptBy (s.stagedOf 3) ∧ s.NoClash 3 (s.stagedOf 3))
    ∧ t.pendingOf 6 = none ∧ imageFault (t.stagedOf 6) = none ∧ (t.stagedOf 6).kind = 0 ∧ (t.line 6).isLive = true := by
  unfold Line.KeptBy State.NoClash
  decide

/-- A state for each failing check of ARM: BUSY, BADTRIGGER by code and by an IDLE line, NOTLIVE, INVALID. -/
theorem witness_ArmChecksStandInTheirOrder :
    let busy := State.reset.setPending 3 (some .mark)
    let bad := State.reset.setStaged 3 section97
    (busy.porstnLow = false ∧ busy.pendingOf 3 ≠ none)
    ∧ (State.reset.porstnLow = false ∧ State.reset.pendingOf 3 = none ∧ 2 < (0x03 : Byte).toNat
      ∧ (State.reset.line 3).isLive = false ∧ (State.reset.stagedOf 3).kind = 0)
    ∧ bad.porstnLow = false ∧ bad.pendingOf 3 = none ∧ (0x00 : Byte).toNat ≤ 2 ∧ (0x00 : Byte) ≠ 0x01
    ∧ (bad.stagedOf 3).kind ≠ 0 ∧ imageFault (bad.stagedOf 3) = some (.field 20) := by decide

theorem witness_DisarmCancelsThePendingCommit :
    State.reset.porstnLow = false ∧ (State.reset.setPending 3 (some .wrap)).pendingOf 3 ≠ none
      ∧ State.reset.pendingOf 3 = none := by decide

/-- BUSY, INVALID at count 0 and at offset + count = 33, and the whole image written. -/
theorem witness_StageWritesItsBytesUnlessPending :
    (State.reset.setPending 3 (some .mark)).pendingOf 3 ≠ none ∧ State.reset.pendingOf 3 = none
      ∧ (32 : Byte).toNat = (List.replicate 32 (0 : Byte)).length ∧ (32 : Byte).toNat ≤ 36
      ∧ (0 : Byte).toNat + (32 : Byte).toNat ≤ 32 ∧ 32 < (1 : Byte).toNat + (32 : Byte).toNat
      ∧ (0 : Byte).toNat = 0 := by decide

theorem witness_ReadingCommandsReplyAndChangeNothing :
    State.reset.porstnLow = false ∧ (List.replicate 38 (0 : Byte)).length ≤ 38 := witness_link_commands

/-- Port A's pop PARKED on line 6, port B without an entry. -/
theorem witness_QueryLineReportsTheRecord :
    let s := holding [parkedPop] (some 9) (onQueue 2 2 0 0 0 0)
    s.porstnLow = false ∧ s.Indicates .A 6 1 ∧ s.Indicates .B 6 0 := by
  refine ⟨by decide, .inr ⟨[], [], parkedPop, by decide, by decide, by decide, by decide⟩, .inl ⟨rfl, ?_⟩⟩
  decide

/-- A RELEASED entry on the line. -/
theorem witness_QueryLineReportsTheRecord_released :
    (holding [releasedPop] (some 9) (onQueue 2 2 0 0 0 0)).Indicates .A 6 2 :=
  .inr ⟨[], [], releasedPop, by decide, by decide, by decide, by decide⟩

theorem witness_QueryPartReportsThePart :
    State.reset.porstnLow = false ∧ State.reset.incidents.records.length ≤ 32 ∧ State.reset.memQueue.length ≤ 8 := by
  decide

theorem witness_EngageAndDisengageSetTheMode :
    State.reset.porstnLow = false ∧ (List.replicate 38 (0 : Byte)).length ≤ 38 := witness_link_commands

theorem witness_FlushEmptiesALiveLine :
    ((onQueue 2 2 0 0 0 0).line 6).isLive = true ∧ (State.reset.line 6).isLive = false
      ∧ (onQueue 2 2 0 0 0 0).porstnLow = false := by decide

theorem witness_ClearMakesEveryLineIdle :
    (onQueue 2 2 0 0 0 0).porstnLow = false ∧ (List.replicate 38 (0 : Byte)).length ≤ 38 := by decide

theorem witness_FramesThatReachNoBlock :
    ({ State.reset with porstnLow := true } : State).porstnLow = true ∧ State.reset.porstnLow = false
      ∧ 40 < (List.replicate 41 (0 : Byte)).length ∧ (∀ c : LinkCode, c.toByte = 0x02 → False)
      ∧ (List.replicate 39 (0 : Byte)).length ≤ 39 := by
  refine ⟨by decide, by decide, by decide, ?_, by decide⟩
  intro c h
  cases c <;> simp [LinkCode.toByte] at h

/-- FLUSH of line 16, a STAGE of the wrong length, a SET_ENABLES of 2 bytes, ENGAGE with a line byte. -/
theorem witness_FramesAreJudgedByLengthThenLineByte :
    State.reset.porstnLow = false ∧ LinkCode.flush ≠ .result ∧ LinkCode.namesLine .flush = true
      ∧ 16 ≤ byteAt [16] 0 ∧ 2 ≤ [(16 : Byte)].length + 1
      ∧ ¬([3, 0, 2, 1].length + 1 = 4 + byteAt [3, 0, 2, 1] 2) ∧ ¬3 ≤ [(0xFF : Byte)].length + 1
      ∧ LinkCode.namesLine .engage = false ∧ byteAt [3] 0 ≠ 255 := by decide

theorem witness_CodesAndFrameBitsAreReadBack : ([true, false] : List Bool).length < 8 := by decide

theorem witness_TakeIncidentReturnsTheOldestRecord :
    State.reset.porstnLow = false ∧ State.reset.incidents.records = [] ∧ section810.records = record18 :: []
      ∧ (∀ k fill : Nat, record18.incident.detail = .underrun k fill → k < 4096 ∧ fill < 4096) := by
  refine ⟨by decide, by decide, by decide, ?_⟩
  intro k fill h
  cases h
  decide

theorem witness_EnablesAndOverflowCommandsAct :
    State.reset.porstnLow = false ∧ (List.replicate 37 (0 : Byte)).length ≤ 37 := by decide

/-- A disabled kind, a match, a break with room, and a full queue. -/
theorem witness_IncidentArrivalCoalescesAppendsOrDrops :
    (∀ y ∈ State.reset.handed, y.source ≠ .lineEngine)
    ∧ (arriving (underrun3 .A)).handed = [] ++ { source := .lineEngine, incident := underrun3 .A } :: []
    ∧ (∀ y ∈ ([] : List Handed), y.source ≠ .lineEngine)
    ∧ section810.enables.getLsbD (kindNumber (.overrun .dropped)) = false
    ∧ section810.enables.getLsbD (kindNumber (underrun3 .A).detail) = true
    ∧ section810.records = [] ++ [record18] ∧ record18.Matches (underrun3 .A) ∧ ¬record18.Matches (underrun3 .B)
    ∧ section810.records.length < 32 ∧ 32 ≤ ({ section810 with records := List.replicate 32 record18 }).records.length := by
  unfold Record.Matches
  decide

theorem witness_SystemResetEmptiesEveryLine :
    ({ State.reset with sysrstnLow := true } : State).sysrstnLow = true ∧ State.reset.sysrstnLow = false := by decide

/-- A command waits in a state whose queues are in order: a plain read just accepted. -/
theorem witness_StepKeepsTheQueuesInOrder :
    let s : State := { offers .read 0x40 .four State.reset with pending := [.take] }
    s.QueuesOk ∧ ∃ t : State, step s = .next t := by
  refine ⟨⟨?_, ⟨by decide, ?_⟩, ?_⟩, _, rfl⟩
  · intro p
    cases p
    · refine ⟨by decide, ?_, ?_, by decide⟩
      · simp [offers, State.intake, State.setIntake, Intake.accept, State.reset, Intake.initial]
      · intro e he
        simp [offers, State.intake, State.setIntake, Intake.accept, State.reset, Intake.initial] at he
        subst he
        unfold Entry.fieldsOk
        decide
    · refine ⟨by decide, ?_, ?_, by decide⟩
      · simp [offers, State.intake, State.setIntake, State.reset, Intake.initial]
      · intro e he
        simp [offers, State.intake, State.setIntake, State.reset, Intake.initial] at he
  · intro p
    cases p <;> decide
  · intro h
    exact absurd h (by decide)

/-- A tick waits in the reset state, which meets every part of the invariant. -/
theorem witness_StepKeepsTheInvariant :
    let s : State := { State.reset with pending := [.tick] }
    s.Inv ∧ ∃ t : State, step s = .next t := by
  have hl : ∀ i : LineNo, State.reset.line i = Line.initial := by decide
  have hp : ∀ i : LineNo, State.reset.pendingOf i = none := by decide
  have empty : ∀ p : Port, (State.reset.intake p) = Intake.initial := by
    intro p
    cases p <;> rfl
  refine ⟨⟨?_, ?_, ?_, ?_, ?_, ⟨?_, ⟨by decide, ?_⟩, ?_⟩, ?_, by unfold Held.Ok; decide, ?_⟩, _, rfl⟩
  · intro i
    show (State.reset.line i).Ok
    rw [hl]
    exact ⟨rfl, rfl, rfl, rfl, rfl, rfl, rfl⟩
  · intro i j _ h
    have h' : (State.reset.line i).isLive = true := h
    rw [hl] at h'
    exact absurd h' (by decide)
  · intro i t h
    have h' : State.reset.pendingOf i = some t := h
    rw [hp] at h'
    cases h'
  · unfold State.UrgencyOk
    decide
  · intro p e he
    have he' : e ∈ (State.reset.intake p).openList := he
    rw [empty] at he'
    cases he'
  · intro p
    show (State.reset.intake p).Ok
    rw [empty]
    refine ⟨by decide, List.Pairwise.nil, ?_, by decide⟩
    intro e he
    cases he
  · intro p
    cases p <;> decide
  · intro h
    exact absurd h (by decide)
  · refine ⟨by decide, ?_, trivial, ?_, by decide⟩
    · intro r hr
      cases hr
    · intro r hr
      cases hr
  · intro h
    exact absurd h (by decide)

end Sys2Proof.Tests
end

section
/-! ## The take: its intakes, its blocks, and the operations of lines

What a take leaves is read off in two layers: the intakes (`State.IntakesAfter`), and the record of the one line that
its operation moves. The statements about pushes, pops, discards and references are put together from the two. -/

namespace Sys2Proof.Machine

/-! ### The intakes after a take -/

/-- `f` turns some PARKED entries RELEASED and changes nothing else. -/
def Releases (f : Entry → Entry) : Prop := ∀ x, f x = x ∨ (x.state = .parked ∧ f x = { x with state := .released })

theorem releases_id : Releases fun x => x := fun _ => .inl rfl

theorem releases_releasedFrom (i : LineNo) (op : ParkedOp) : Releases (Entry.releasedFrom i op) := by
  intro x
  unfold Entry.releasedFrom
  split
  · rename_i h
    exact .inr ⟨h.1, rfl⟩
  · exact .inl rfl

theorem Releases.tag {f : Entry → Entry} (hf : Releases f) (x : Entry) : (f x).tag = x.tag := by
  obtain h | ⟨-, h⟩ := hf x <;> rw [h]

/-- A take that records the class, lets `other` release entries and then sets the taken entry by `set`. -/
theorem intakesAfter_of_set {s u t : State} {p : Port} {e : Entry} {d : Decoded} {other set : Entry → Entry}
    (ho : Releases other) (hset : ∀ y : Entry, set { y with state := .released } = set y)
    (hu : ∀ q, u.intake q =
      { (beginTake p e d s).intake q with openList := ((beginTake p e d s).intake q).openList.map other })
    (ht : ∀ q, t.intake q =
      { u.intake q with
        openList := (u.intake q).openList.map fun x => if q = p ∧ x.tag = e.tag then set x else x }) :
    s.IntakesAfter t p e (fun x => set { x with cls := some d.toClass }) other := by
  have absorbs : ∀ y, set (other y) = set y := fun y => by
    obtain h | ⟨-, h⟩ := ho y <;> rw [h]
    exact hset y
  intro q
  rw [ht, hu, intake_beginTake]
  simp only [List.map_map]
  congr 1
  apply List.map_congr_left
  intro x _
  by_cases hx : q = p ∧ x.tag = e.tag <;> simp [hx, ho.tag, absorbs]

/-- A take that issues a transaction, `other` being what it releases first. -/
theorem intakesAfter_issue {s u : State} {p : Port} {e : Entry} {d : Decoded} {x : Transaction} {other : Entry → Entry}
    (ho : Releases other)
    (hu : ∀ q, u.intake q =
      { (beginTake p e d s).intake q with openList := ((beginTake p e d s).intake q).openList.map other }) :
    s.IntakesAfter (issue p e x u) p e (Entry.nowIs d .issued) other :=
  intakesAfter_of_set (set := fun y => { y with state := .issued }) ho (fun _ => rfl) hu
    fun q => intake_issue u p q e x

/-- A take that answers its entry, `other` being what it releases first. -/
theorem intakesAfter_answer {s u : State} {p : Port} {e : Entry} {d : Decoded} {status : Status} {data : Data}
    {other : Entry → Entry} (ho : Releases other)
    (hu : ∀ q, u.intake q =
      { (beginTake p e d s).intake q with openList := ((beginTake p e d s).intake q).openList.map other }) :
    s.IntakesAfter (answerEntry p e status data u) p e (Entry.nowReady d status data) other :=
  intakesAfter_of_set (set := Entry.answered status data) ho (fun _ => rfl) hu
    fun q => intake_answerEntry u p q e status data

/-- `IntakesAfter` speaks of the intakes alone. -/
theorem State.IntakesAfter.congr {s t u : State} {p : Port} {e : Entry} {own other : Entry → Entry}
    (h : s.IntakesAfter t p e own other) (hu : ∀ q, u.intake q = t.intake q) : s.IntakesAfter u p e own other :=
  fun q => (hu q).trans (h q)

/-! ### The records the movements leave -/

theorem Line.wrapsNext_iff (l : Line) : l.wrapsNext = true ↔ l.head + 1 = l.L := by
  simp [Line.wrapsNext]

theorem Line.advanceHead_eq (l : Line) :
    l.advanceHead = { l with head := if l.head + 1 = l.L then 0 else l.head + 1 } := by
  simp [Line.advanceHead, Line.wrapsNext]

theorem Line.delayPush_eq (l : Line) :
    l.delayPush =
      { l with
        head := if l.head + 1 = l.L then 0 else l.head + 1, fill := min (l.fill + 1) l.L,
        tail := modL (((if l.head + 1 = l.L then 0 else l.head + 1 : Nat) : Int) - (min (l.fill + 1) l.L : Nat)) l.L,
        walkA := 0, walkB := 0 } := by
  simp only [Line.delayPush, Line.advanceHead_eq, Line.deriveTail, Line.resetWalks, Line.L]

theorem Line.enqueue_eq (l : Line) :
    l.enqueue = { l with head := if l.head + 1 = l.L then 0 else l.head + 1, fill := l.fill + 1 } := by
  simp only [Line.enqueue, Line.advanceHead_eq]

theorem Line.displace_eq (l : Line) :
    l.displace =
      { l with
        head := if l.head + 1 = l.L then 0 else l.head + 1, tail := (l.tail + 1) % l.L, fill := l.L,
        walkA := 0, walkB := 0 } := by
  simp only [Line.displace, Line.advanceHead_eq, Line.resetWalks]

theorem Line.referencePosition_eq_positionOf (l : Line) (k : Nat) : l.referencePosition k = positionOf l k := by
  unfold Line.referencePosition positionOf modL Line.distance Image.isQueue
  by_cases h : l.active.kind = 2 <;> simp [h]

/-- The model's transaction of an operation is the one the statements write out. -/
theorem lineTransaction_eq_ringTransaction (p : Port) (e : Entry) (i : LineNo) (l : Line) (pos : Nat)
    (purpose : Purpose) : lineTransaction p e i l pos purpose = ringTransaction p e i l pos purpose := rfl

/-- The wrap report of a take that brings no commit due. -/
theorem reportIfWrapped_quiet {s u : State} {i : LineNo}
    (h : ¬((s.line i).head + 1 = (s.line i).L ∧ s.pendingOf i = some .wrap)) (hu : u.pendingOf i = s.pendingOf i) :
    reportIfWrapped i (s.line i).wrapsNext u = u :=
  reportIfWrapped_none (by rwa [hu, Line.wrapsNext_iff])

end Sys2Proof.Machine
end

section
namespace Sys2Proof.Machine

/-! ### The operations before the wrap report -/

theorem exec_take (s : State) : exec .take s = execTake s := rfl

/-- A DELAY push as it stands before the wrap report. -/
def delayPushed (p : Port) (e : Entry) (i : LineNo) (s : State) : State :=
  issue p e (lineTransaction p e i (s.line i) (s.line i).head .push) (s.setLine i (s.line i).delayPush)

/-- An enqueuing push as it stands before the wrap report. -/
def enqueued (p : Port) (e : Entry) (i : LineNo) (s : State) : State :=
  issue p e (lineTransaction p e i (s.line i) (s.line i).head .push)
    (recomputeUrgency (releaseParked i .pop (s.setLine i (s.line i).enqueue)))

/-- A displacing push as it stands before the wrap report. -/
def displaced (p : Port) (e : Entry) (i : LineNo) (s : State) : State :=
  hand .lineEngine (entryIncident p i e (.overrun .replaced))
    (issue p e (lineTransaction p e i (s.line i) (s.line i).head .push)
      (releaseParked i .pop (s.setLine i (s.line i).displace)))

theorem delayPush_eq_report (p : Port) (e : Entry) (i : LineNo) (s : State) :
    delayPush p e i s = reportIfWrapped i (s.line i).wrapsNext (delayPushed p e i s) := rfl

theorem enqueue_eq_report (p : Port) (e : Entry) (i : LineNo) (s : State) :
    enqueue p e i s = reportIfWrapped i (s.line i).wrapsNext (enqueued p e i s) := rfl

theorem displace_eq_report (p : Port) (e : Entry) (i : LineNo) (s : State) :
    displace p e i s = reportIfWrapped i (s.line i).wrapsNext (displaced p e i s) := rfl

/-! What each leaves, after the start of a take. -/

section
variable (s : State) (p : Port) (e : Entry) (i : LineNo) (d : Decoded)

theorem delayPushed_intakes :
    s.IntakesAfter (delayPushed p e i (beginTake p e d s)) p e (Entry.nowIs d .issued) fun x => x :=
  intakesAfter_issue releases_id fun q => by simp

theorem enqueued_intakes :
    s.IntakesAfter (enqueued p e i (beginTake p e d s)) p e (Entry.nowIs d .issued) (Entry.releasedFrom i .pop) :=
  intakesAfter_issue (releases_releasedFrom i .pop) fun q => by simp [intake_releaseParked]

theorem displaced_intakes :
    s.IntakesAfter (displaced p e i (beginTake p e d s)) p e (Entry.nowIs d .issued) (Entry.releasedFrom i .pop) :=
  (intakesAfter_issue (releases_releasedFrom i .pop) fun q => by simp [intake_releaseParked]).congr
    fun q => hand_intake _ _ _ q

theorem dequeue_intakes :
    s.IntakesAfter (dequeue p e i (beginTake p e d s)) p e (Entry.nowIs d .issued) (Entry.releasedFrom i .push) :=
  intakesAfter_issue (releases_releasedFrom i .push) fun q => by simp [intake_releaseParked]

end

/-! The line table and the urgencies they leave. -/

theorem delayPushed_engine (p : Port) (e : Entry) (i : LineNo) (s : State) :
    (delayPushed p e i s).engine = { s.engine with lines := s.engine.lines.set i (s.line i).delayPush } := by
  rw [delayPushed, issue_engine]
  rfl

theorem enqueued_engine (p : Port) (e : Entry) (i : LineNo) (s : State) :
    (enqueued p e i s).engine =
      { s.engine with
        lines := s.engine.lines.set i (s.line i).enqueue,
        urgentA := urgencyOf (s.engine.lines.set i (s.line i).enqueue) .A,
        urgentB := urgencyOf (s.engine.lines.set i (s.line i).enqueue) .B } := by
  rw [enqueued, issue_engine]
  rfl

theorem displaced_engine (p : Port) (e : Entry) (i : LineNo) (s : State) :
    (displaced p e i s).engine = { s.engine with lines := s.engine.lines.set i (s.line i).displace } := by
  rw [displaced, hand_engine, issue_engine]
  rfl

theorem dequeue_engine (p : Port) (e : Entry) (i : LineNo) (s : State) :
    (dequeue p e i s).engine =
      { s.engine with
        lines := s.engine.lines.set i (s.line i).dequeue,
        urgentA := urgencyOf (s.engine.lines.set i (s.line i).dequeue) .A,
        urgentB := urgencyOf (s.engine.lines.set i (s.line i).dequeue) .B } := by
  simp only [dequeue, issue_engine]
  rfl

/-! ### Pushes, pops and discards -/

/-- Settles O17: with no commit due the push is `delayPushed`, whose intakes and line table are known. -/
theorem delayPushWritesAtHead : Obligations.DelayPushWritesAtHead := by
  unfold Obligations.DelayPushWritesAtHead
  intro s p e i ht hq hw l head fill
  refine ⟨delayPushed p e i (beginTake p e (.operation i .push) s), ?_, ?_, delayPushed_intakes s p e i _, ?_, ?_⟩
  · simp only [exec_take, execTake_takes ht, performDecoded, performOp, beginTake_line, hq, Bool.false_eq_true,
      if_false, delayPush_eq_report]
    rw [reportIfWrapped_quiet hw (by simp [delayPushed])]
  · simp [delayPushed, lineTransaction_eq_ringTransaction, l]
  · rw [delayPushed_engine, beginTake_engine, beginTake_line, Line.delayPush_eq]
    rfl
  · apply State.eq_of_fields <;> simp [delayPushed]

/-- Settles O23: with no commit due the push is `enqueued`. -/
theorem enqueueWritesAtHeadAndReleasesPops : Obligations.EnqueueWritesAtHeadAndReleasesPops := by
  unfold Obligations.EnqueueWritesAtHeadAndReleasesPops
  intro s p e i ht hq hfill hw l
  refine ⟨enqueued p e i (beginTake p e (.operation i .push) s), ?_, ?_, enqueued_intakes s p e i _, ?_, ?_⟩
  · simp only [exec_take, execTake_takes ht, performDecoded, performOp, queuePush, beginTake_line, hq, if_true,
      if_pos hfill, enqueue_eq_report]
    rw [reportIfWrapped_quiet hw (by simp [enqueued])]
  · simp [enqueued, lineTransaction_eq_ringTransaction, l]
  · rw [enqueued_engine, beginTake_engine, beginTake_line, Line.enqueue_eq]
  · apply State.eq_of_fields <;> simp [enqueued]

/-- Settles O25: with no commit due the push is `displaced`. -/
theorem fullQueueReplacesOldest : Obligations.FullQueueReplacesOldest := by
  unfold Obligations.FullQueueReplacesOldest
  intro s p e i ht hq hfill hpolicy hw l
  refine ⟨displaced p e i (beginTake p e (.operation i .push) s), ?_, ?_, displaced_intakes s p e i _, ?_, ?_, ?_⟩
  · simp only [exec_take, execTake_takes ht, performDecoded, performOp, queuePush, overrun, beginTake_line, hq, if_true,
      hfill, lt_irrefl, if_false, hpolicy, displace_eq_report]
    rw [reportIfWrapped_quiet hw (by simp [displaced])]
  · simp [displaced, lineTransaction_eq_ringTransaction, l]
  · simp [displaced, entryIncident, takeIncident]
  · rw [displaced_engine, beginTake_engine, beginTake_line, Line.displace_eq, ← hfill]
  · apply State.eq_of_fields <;> simp [displaced]

/-- Settles O28: the pop is `dequeue`, whose intakes and line table are known. -/
theorem popReadsAtTailAndReleasesPushes : Obligations.PopReadsAtTailAndReleasesPushes := by
  unfold Obligations.PopReadsAtTailAndReleasesPushes
  intro s p e i ht hfill l
  refine ⟨dequeue p e i (beginTake p e (.operation i .pop) s), ?_, ?_, dequeue_intakes s p e i _, ?_, ?_⟩
  · simp only [exec_take, execTake_takes ht, performDecoded, performOp, queuePop, beginTake_line, if_pos hfill]
  · simp [dequeue, lineTransaction_eq_ringTransaction, l]
  · rw [dequeue_engine, beginTake_engine, beginTake_line]
    rfl
  · apply State.eq_of_fields <;> simp [dequeue]

/-- A discard that removes elements, as it answers its entry. -/
def discardedFrom (i : LineNo) (n : Nat) (s : State) : State :=
  recomputeUrgency (releaseParked i .push (s.setLine i ((s.line i).discard n)))

theorem queueDiscard_removes {p : Port} {e : Entry} {i : LineNo} {s : State} {n : Data} (ha : e.access = .write n)
    (hm : 0 < min n.toNat (s.line i).fill) :
    queueDiscard p e i s = answerEntry p e .okay 0 (discardedFrom i n.toNat s) := by
  have hne : (s.line i).discarded n.toNat ≠ 0 := Nat.pos_iff_ne_zero.mp hm
  simp only [queueDiscard, ha, Access.data, dataNumber, if_neg hne]
  rfl

theorem queueDiscard_removes_none {p : Port} {e : Entry} {i : LineNo} {s : State} {n : Data} (ha : e.access = .write n)
    (hm : min n.toNat (s.line i).fill = 0) : queueDiscard p e i s = answerEntry p e .okay 0 s := by
  have h0 : (s.line i).discarded n.toNat = 0 := hm
  simp only [queueDiscard, ha, Access.data, dataNumber, if_pos h0]

theorem Line.discard_eq {l : Line} {n : Nat} (hm : 0 < min n l.fill) :
    l.discard n =
      { l with tail := (l.tail + min n l.fill) % l.L, fill := l.fill - min n l.fill, walkA := 0, walkB := 0 } := by
  have hne : l.discarded n ≠ 0 := Nat.pos_iff_ne_zero.mp hm
  simp only [Line.discard, if_neg hne]
  rfl

/-- Settles O30, apart for a discard that removes elements and for one that finds none. -/
theorem discardRemovesFromTheOldestEnd : Obligations.DiscardRemovesFromTheOldestEnd := by
  unfold Obligations.DiscardRemovesFromTheOldestEnd
  intro s p e i n ht ha l m
  have take : exec .take s = .next (queueDiscard p e i (beginTake p e (.operation i .discard) s)) := by
    simp only [exec_take, execTake_takes ht, performDecoded, performOp]
  by_cases hm : 0 < m
  · rw [queueDiscard_removes ha (by rwa [beginTake_line])] at take
    refine ⟨_, take, ?_, fun _ => ⟨?_, ?_⟩, fun h0 => absurd h0 (Nat.pos_iff_ne_zero.mp hm)⟩
    · apply State.eq_of_fields <;> simp [discardedFrom]
    · exact intakesAfter_answer (other := Entry.releasedFrom i .push) (releases_releasedFrom i .push)
        fun q => by simp [discardedFrom, intake_releaseParked]
    · rw [answerEntry_engine, discardedFrom, beginTake_line, Line.discard_eq hm]
      simp only [recomputeUrgency, releaseParked_engine, State.setLine, beginTake_engine]
      rfl
  · have h0 : m = 0 := Nat.eq_zero_of_not_pos hm
    rw [queueDiscard_removes_none ha (by rwa [beginTake_line])] at take
    refine ⟨_, take, ?_, fun h => absurd h hm, fun _ => ⟨?_, ?_⟩⟩
    · apply State.eq_of_fields <;> simp
    · exact intakesAfter_answer releases_id fun q => by simp
    · rw [answerEntry_engine, beginTake_engine]

end Sys2Proof.Machine
end

section
namespace Sys2Proof.Machine

/-! ### Accesses to a reference -/

/-- How an under-run is answered under policy ERROR, and under any other. -/
def underrunStatus (l : Line) : Status := if l.active.underrunPolicy = 1 then .error else .okay

/-- An ERROR answer shows no data, so an under-run is one answer with the policy's status. -/
theorem answerUnderrun_eq (p : Port) (e : Entry) (i : LineNo) (s : State) :
    answerUnderrun p e i s = answerEntry p e (underrunStatus (s.line i)) (s.line i).active.fillValue s := by
  unfold answerUnderrun underrunStatus
  by_cases h : (s.line i).active.underrunPolicy = 1
  · have noData : Entry.answered .error 0 = Entry.answered .error (s.line i).active.fillValue := by
      funext x
      simp only [Entry.answered, formAnswer]
      cases x.access <;> rfl
    simp only [h, if_true, answerEntry, noData]
  · simp only [h, if_false]

theorem accessReference_valid {p : Port} {e : Entry} {i : LineNo} {k : Nat} {purpose : Purpose} {s : State}
    (h : k * (s.line i).active.spacing < (s.line i).fill) :
    accessReference p e i k purpose s =
      issue p e (ringTransaction p e i (s.line i) (positionOf (s.line i) k) purpose) s := by
  have hv : (s.line i).valid k = true := decide_eq_true h
  simp only [accessReference, hv, if_true, Line.referencePosition_eq_positionOf, lineTransaction_eq_ringTransaction]

theorem accessReference_underruns {p : Port} {e : Entry} {i : LineNo} {k : Nat} {purpose : Purpose} {s : State}
    (h : (s.line i).fill ≤ k * (s.line i).active.spacing) :
    accessReference p e i k purpose s =
      hand .lineEngine (entryIncident p i e (.underrun k (s.line i).fill))
        (answerEntry p e (underrunStatus (s.line i)) (s.line i).active.fillValue s) := by
  have hv : (s.line i).valid k = false := decide_eq_false (Nat.not_lt.mpr h)
  simp only [accessReference, hv, Bool.false_eq_true, if_false, underrun, answerUnderrun_eq]

theorem accessReference_cases (p : Port) (e : Entry) (i : LineNo) (k : Nat) (purpose : Purpose) (s : State) :
    (k * (s.line i).active.spacing < (s.line i).fill ∧ accessReference p e i k purpose s =
      issue p e (ringTransaction p e i (s.line i) (positionOf (s.line i) k) purpose) s)
    ∨ ((s.line i).fill ≤ k * (s.line i).active.spacing ∧ accessReference p e i k purpose s =
      hand .lineEngine (entryIncident p i e (.underrun k (s.line i).fill))
        (answerEntry p e (underrunStatus (s.line i)) (s.line i).active.fillValue s)) := by
  rcases Nat.lt_or_ge (k * (s.line i).active.spacing) (s.line i).fill with h | h
  · exact .inl ⟨h, accessReference_valid h⟩
  · exact .inr ⟨h, accessReference_underruns h⟩

/-- Settles O19: all four operations are one access to a reference, which is valid. -/
theorem validReferenceReachesItsPosition : Obligations.ValidReferenceReachesItsPosition := by
  unfold Obligations.ValidReferenceReachesItsPosition
  intro s p e i op k purpose hop ht hk l
  have take : exec .take s = .next (accessReference p e i k purpose (beginTake p e (.operation i op) s)) := by
    rw [exec_take, execTake_takes ht]
    obtain ⟨rfl, rfl, rfl⟩ | ⟨rfl | rfl, rfl⟩ | ⟨rfl, rfl⟩ := hop <;> rfl
  rw [accessReference_valid (by rwa [beginTake_line])] at take
  refine ⟨_, take, ?_, intakesAfter_issue releases_id fun q => by simp, ?_⟩
  · simp [l]
  · apply State.eq_of_fields <;> simp

/-- The purpose of a walk access. -/
theorem performOp_walk {due : Option (BitVec 32)} {p : Port} {e : Entry} {i : LineNo} {op : LineOp} {s : State}
    (hop : op = .walkRead ∨ op = .walkPeek ∨ op = .walkAmend) :
    performOp due p e i op s = accessWalk p e i (if op = .walkAmend then .amend else .walkRead) s := by
  obtain rfl | rfl | rfl := hop <;> rfl

theorem accessWalk_engine (p : Port) (e : Entry) (i : LineNo) (purpose : Purpose) (s : State) :
    (accessWalk p e i purpose s).engine =
      { s.engine with lines := s.engine.lines.set i ((s.line i).advanceWalk p) } := by
  have hk : (accessReference p e i ((s.line i).walk p) purpose s).engine = s.engine := by
    obtain ⟨-, h⟩ | ⟨-, h⟩ := accessReference_cases p e i ((s.line i).walk p) purpose s <;> simp [h]
  simp only [accessWalk, State.setLine, hk]

/-- Settles O21: the reference is met or under-runs, and the port's cursor advances after either. -/
theorem walkAccessAdvancesOwnCursor : Obligations.WalkAccessAdvancesOwnCursor := by
  unfold Obligations.WalkAccessAdvancesOwnCursor
  intro s p e i op hop ht l c status
  have hc : c = l.walk p := by cases p <;> rfl
  have take : exec .take s = .next (accessWalk p e i (if op = .walkAmend then .amend else .walkRead)
      (beginTake p e (.operation i op) s)) := by
    simp only [exec_take, execTake_takes ht, performDecoded, performOp_walk hop]
  generalize (if op = .walkAmend then Purpose.amend else .walkRead) = purpose at take ⊢
  refine ⟨_, take, ?_, ?_, fun hv => ?_, fun hu => ?_⟩
  · rw [accessWalk_engine, beginTake_engine, beginTake_line, hc]
    cases p <;> rfl
  · unfold accessWalk
    dsimp only
    obtain ⟨-, h⟩ | ⟨-, h⟩ := accessReference_cases p e i
      (((beginTake p e (.operation i op) s).line i).walk p) purpose (beginTake p e (.operation i op) s) <;>
    · rw [h]
      apply State.eq_of_fields <;> simp
  · rw [accessWalk, accessReference_valid (by rwa [beginTake_line, ← hc])]
    refine ⟨by simp [← hc, l], (intakesAfter_issue releases_id fun q => ?_).congr fun q => State.setLine_intake _ _ _ q,
      by simp⟩
    simp
  · have answered : s.IntakesAfter (answerEntry p e status l.active.fillValue (beginTake p e (.operation i op) s)) p e
        (Entry.nowReady (.operation i op) status l.active.fillValue) fun x => x :=
      intakesAfter_answer releases_id fun q => by simp
    rw [accessWalk, accessReference_underruns (by rwa [beginTake_line, ← hc])]
    refine ⟨by simp, answered.congr fun q => ?_, by simp [entryIncident, takeIncident, ← hc, l]⟩
    simp [l, status, underrunStatus]

end Sys2Proof.Machine
end

section
namespace Sys2Proof.Machine

/-! ### A push that wraps -/

/-- The push of a line that stores its element, as it stands before the wrap report: a DELAY push, an enqueue, or a
displace. -/
def storedPush (p : Port) (e : Entry) (i : LineNo) (s : State) : State :=
  if (s.line i).active.isQueue then
    if (s.line i).fill < (s.line i).L then enqueued p e i s else displaced p e i s
  else delayPushed p e i s

/-- A push to this line stores its element: it is no queue, or has room, or is full under REPLACE. -/
def Line.Stores (l : Line) : Prop :=
  l.active.isQueue = true → l.fill < l.L ∨ (l.fill = l.L ∧ l.active.overflowPolicy = 1)

theorem performOp_push_stored {due : Option (BitVec 32)} {p : Port} {e : Entry} {i : LineNo} {s : State}
    (h : (s.line i).Stores) :
    performOp due p e i .push s = reportIfWrapped i (s.line i).wrapsNext (storedPush p e i s) := by
  unfold performOp storedPush
  by_cases hq : (s.line i).active.isQueue = true
  · by_cases hf : (s.line i).fill < (s.line i).L
    · simp only [hq, if_true, queuePush, if_pos hf, enqueue_eq_report]
    · obtain ⟨-, hpolicy⟩ := (h hq).resolve_left hf
      simp only [hq, if_true, queuePush, if_neg hf, overrun, hpolicy, displace_eq_report]
  · simp only [hq, if_false, delayPush_eq_report, Bool.false_eq_true]

theorem storedPush_eq (p : Port) (e : Entry) (i : LineNo) (s : State) :
    storedPush p e i s =
      { s with
        portA := (storedPush p e i s).portA, portB := (storedPush p e i s).portB,
        engine := (storedPush p e i s).engine, memQueue := (storedPush p e i s).memQueue,
        handed := (storedPush p e i s).handed } := by
  unfold storedPush
  split
  · split
    · apply State.eq_of_fields <;> simp [enqueued]
    · apply State.eq_of_fields <;> simp [displaced]
  · apply State.eq_of_fields <;> simp [delayPushed]

theorem storedPush_commit (p : Port) (e : Entry) (i : LineNo) (s : State) : (storedPush p e i s).commit = s.commit := by
  rw [storedPush_eq]

/-- Taking and storing a push reads nothing of the commit unit. -/
theorem storedPush_withCommit (p : Port) (e : Entry) (i : LineNo) (d : Decoded) (s : State) (c : CommitUnit) :
    storedPush p e i (beginTake p e d { s with commit := c }) =
      { storedPush p e i (beginTake p e d s) with commit := c } := by
  have begins : beginTake p e d { s with commit := c } = { beginTake p e d s with commit := c } := by
    unfold beginTake
    by_cases h : e.state = .released <;> cases p <;> simp only [h, if_true, if_false] <;> rfl
  rw [begins]
  generalize beginTake p e d s = u
  show (if (u.line i).active.isQueue then
      if (u.line i).fill < (u.line i).L then enqueued p e i { u with commit := c }
      else displaced p e i { u with commit := c }
    else delayPushed p e i { u with commit := c }) = _
  unfold storedPush
  split
  · split <;> cases p <;> rfl
  · cases p <;> rfl

/-- The take of a push that stores its element. -/
theorem take_storedPush {s : State} {p : Port} {e : Entry} {i : LineNo} (ht : s.Takes p e (.operation i .push))
    (hs : (s.line i).Stores) :
    exec .take s =
      .next (reportIfWrapped i (s.line i).wrapsNext (storedPush p e i (beginTake p e (.operation i .push) s))) := by
  simp only [exec_take, execTake_takes ht, performDecoded]
  rw [performOp_push_stored (by rwa [beginTake_line]), beginTake_line]

/-- The take of a push that wraps a line with a pending WRAP commit ends with that commit dealt with. -/
theorem take_wrappingPush {s : State} {p : Port} {e : Entry} {i : LineNo} (ht : s.Takes p e (.operation i .push))
    (hs : (s.line i).Stores) (hw : (s.line i).head + 1 = (s.line i).L) (hp : s.pendingOf i = some .wrap) :
    exec .take s = .next (dueCommit .lineEngine i (storedPush p e i (beginTake p e (.operation i .push) s))) := by
  rw [take_storedPush ht hs, (Line.wrapsNext_iff _).mpr hw, reportIfWrapped_due]
  rw [State.pendingOf, storedPush_commit, beginTake_commit]
  exact hp

theorem State.Takes.withCommit {s : State} {p : Port} {e : Entry} {d : Decoded} (h : s.Takes p e d) (c : CommitUnit) :
    ({ s with commit := c } : State).Takes p e d := h

theorem State.withCommit_self {s : State} {c : CommitUnit} (h : s.commit = c) :
    ({ s with commit := c } : State) = s := by
  subst h
  rfl

/-- With another commit unit, in which the line has no commit pending, the same push is the whole take. -/
theorem take_storedPush_unreported {s : State} {p : Port} {e : Entry} {i : LineNo} {c : CommitUnit}
    (ht : s.Takes p e (.operation i .push)) (hs : (s.line i).Stores) (hc : c.pendingCommit[i] = none) :
    exec .take { s with commit := c } =
      .next { storedPush p e i (beginTake p e (.operation i .push) s) with commit := c } := by
  rw [take_storedPush (ht.withCommit c) hs, storedPush_withCommit, reportIfWrapped_none]
  simp [State.pendingOf, hc]

/-- Settles O18: the commit comes due on the state that the same push leaves where no commit is pending. -/
theorem wrapAppliesSoftCommitInTheTake : Obligations.WrapAppliesSoftCommitInTheTake := by
  unfold Obligations.WrapAppliesSoftCommitInTheTake
  refine ⟨fun s p e i ht hk hl hw hp hdk hde hdb hdL hclash => ?_, fun s p e i ht hw hp hs => ?_⟩
  · intro l fill
    have hq : (s.line i).active.isQueue = false := by simp [Image.isQueue, hk]
    have hv : storedPush p e i (beginTake p e (.operation i .push) s)
        = delayPushed p e i (beginTake p e (.operation i .push) s) := by
      simp [storedPush, hq]
    have take := take_wrappingPush ht (fun h => by simp [hq] at h) hw hp
    rw [hv] at take
    generalize hu : delayPushed p e i (beginTake p e (.operation i .push) s) = u at take
    have lineOf : ∀ j, u.line j = if j = i then l.delayPush else s.line j := fun j => by
      rw [← hu, delayPushed, issue_line, State.line_setLine, beginTake_line, beginTake_line]
    have stagedEq : ∀ j, u.stagedOf j = s.stagedOf j := fun j => by simp [← hu, delayPushed]
    have pendingEq : ∀ j, u.pendingOf j = s.pendingOf j := fun j => by simp [← hu, delayPushed]
    have self : u.line i = l.delayPush := by simp [lineOf]
    obtain ⟨-, applied, -⟩ := dueCommit_dealt u .lineEngine i
    obtain ⟨engineEq, -, rest⟩ := (applied (by rw [stagedEq, hdk]; decide) (fun j hj hjl => by
        rw [lineOf, if_neg hj] at hjl ⊢
        rw [stagedEq]
        exact hclash j hj hjl)).1 (by
      rw [self, stagedEq, Line.delayPush_eq]
      exact ⟨hl, hdk.trans hk.symm, hde, hdb, hdL⟩)
    refine ⟨_, take, ?_, ?_, ?_, ?_, fun j hj => ⟨?_, ?_⟩⟩
    · rw [rest, ← hu]
      simp [delayPushed, lineTransaction_eq_ringTransaction, l]
    · rw [State.line, engineEq]
      simp [self, stagedEq, Line.delayPush_eq, l, hw, modL, fill]
    · rw [State.pendingOf, rest]
      simp
    · rw [State.stagedOf, rest]
      exact stagedEq i
    · have hv : i.val ≠ j.val := fun h => hj (Fin.ext h).symm
      rw [State.line, engineEq]
      simp only [Fin.getElem_fin, Vector.getElem_set_ne _ _ hv]
      exact (lineOf j).trans (if_neg hj)
    · have hv : i.val ≠ j.val := fun h => hj (Fin.ext h).symm
      rw [State.pendingOf, rest]
      simp only [Fin.getElem_fin, Vector.getElem_set_ne _ _ hv]
      exact pendingEq j
  · have quiet := take_storedPush_unreported ht hs
      (c := { s.commit with pendingCommit := s.commit.pendingCommit.set i none }) (by simp)
    refine ⟨_, _, quiet, take_wrappingPush ht hs hw hp, ?_⟩
    generalize hu : storedPush p e i (beginTake p e (.operation i .push) s) = u
    have back : ({ u with commit := s.commit } : State) = u := by
      apply State.withCommit_self
      rw [← hu, storedPush_commit, beginTake_commit]
    show ({ u with commit := s.commit } : State).CommitDealt (dueCommit .lineEngine i u) .lineEngine i
    rw [back]
    exact dueCommit_dealt u .lineEngine i

end Sys2Proof.Machine
end

section
/-! ## Guards, and the commands and resets that empty lines -/

namespace Sys2Proof.Machine

/-! ### Guards -/

/-- A filtered list begins with the first element that passes. -/
theorem filter_allLines_of_lowest {test : LineNo → Bool} {i : LineNo} (hi : test i = true)
    (hlow : ∀ j : LineNo, j < i → test j = false) : ∃ more, allLines.filter test = i :: more := by
  have h : (allLines.filter test).head? = some i := by rw [List.head?_filter, find?_allLines hi hlow]
  exact List.head?_eq_some_iff.mp h

theorem windowsMet_eq_nil {s : State} {r : Span}
    (h : ∀ j : LineNo, (s.line j).isLive = true → Span.meets r (s.line j).active.windowSpan = false) :
    windowsMet s r = [] := by
  refine List.filter_eq_nil_iff.mpr fun j _ hj => ?_
  obtain ⟨hl, hm⟩ := Bool.and_eq_true_iff.mp hj
  exact Bool.false_ne_true ((h j hl).symm.trans hm)

/-- READ forbids writes, CLOSED both; every code above 1 is read as CLOSED. -/
theorem guardForbids_iff (d : Image) (access : Access) :
    guardForbids d (Access.isWrite access) = true ↔
      match access with
      | .read => 2 ≤ d.guard
      | .write _ => 1 ≤ d.guard := by
  unfold guardForbids
  cases access <;> by_cases h0 : d.guard = 0 <;> by_cases h1 : d.guard = 1 <;>
    simp [h0, h1, Access.isWrite] <;> omega

theorem decodeRequest_plain {s : State} {access : Access} {addr : Addr} {size : Size} (hm : s.engine.mode = .engaged)
    (hw : windowsMet s (requestSpan addr size) = [])
    (hg : guardsForbidding s (requestSpan addr size) (Access.isWrite access) = []) :
    decodeRequest s access addr size = .plain := by
  simp only [decodeRequest, hm, decodeEngaged, hw, hg]

theorem decodeRequest_guarded {s : State} {access : Access} {addr : Addr} {size : Size} {i : LineNo}
    {more : List LineNo} (hm : s.engine.mode = .engaged) (hw : windowsMet s (requestSpan addr size) = [])
    (hg : guardsForbidding s (requestSpan addr size) (Access.isWrite access) = i :: more) :
    decodeRequest s access addr size = .refused (.guard (guardDetail access)) i := by
  simp only [decodeRequest, hm, decodeEngaged, hw, hg]

/-- Settles O15: the refusing line is the head of the filtered list of lines, and with none the access is plain. -/
theorem guardDecidesPlainAccess : Obligations.GuardDecidesPlainAccess := by
  unfold Obligations.GuardDecidesPlainAccess
  intro s access addr size hm hw forbids
  have forbids_iff : ∀ j : LineNo, ((s.line j).isLive && Span.meets (requestSpan addr size) (s.line j).active.ringSpan
      && guardForbids (s.line j).active (Access.isWrite access)) = true ↔ forbids j := by
    intro j
    rw [Bool.and_eq_true, Bool.and_eq_true, and_assoc]
    exact and_congr_right fun _ => and_congr_right fun _ => guardForbids_iff _ access
  refine ⟨fun none => ?_, fun i hi hlow => ?_⟩
  · exact decodeRequest_plain hm (windowsMet_eq_nil hw)
      (List.filter_eq_nil_iff.mpr fun j _ hj => none j ((forbids_iff j).mp hj))
  · obtain ⟨more, hmore⟩ := filter_allLines_of_lowest ((forbids_iff i).mpr hi)
      fun j hj => Bool.eq_false_iff.mpr fun ht => hlow j hj ((forbids_iff j).mp ht)
    rw [decodeRequest_guarded hm (windowsMet_eq_nil hw) hmore]
    cases access <;> rfl

/-! ### FLUSH -/

theorem exec_flush (rest : List Byte) (s : State) :
    exec (.flush rest) s = .next (lineFrame .flush rest flushLine s) := rfl

theorem flushLine_live {i : LineNo} {args : List Byte} {s : State} (h : (s.line i).isLive = true) :
    flushLine i args s =
      (recomputeUrgency (abandon .link .flush (Entry.heldOn i) (s.setLine i (s.line i).emptied)), okWith []) := by
  simp only [flushLine, h, if_true]

theorem flushLine_idle {i : LineNo} {args : List Byte} {s : State} (h : (s.line i).isLive = false) :
    flushLine i args s = (s, statusOnly .notlive) := by
  simp only [flushLine, h, Bool.false_eq_true, if_false]

/-- Settles O48: the frame is long enough and names its line, so FLUSH acts, on a LIVE line or on an IDLE one. -/
theorem flushEmptiesALiveLine : Obligations.FlushEmptiesALiveLine := by
  unfold Obligations.FlushEmptiesALiveLine
  intro s i more hp hn
  have acts : exec (.flush (lineNoByte i :: more)) s =
      .next (reply (flushLine i more (shiftFrame (0x16 :: lineNoByte i :: more) s))) := by
    rw [exec_flush, lineFrame_acts hp (by simpa [Config.frameMax] using hn) (by simp [LinkCode.lengthOk])
      (lineOfByte_lineNoByte i)]
    rfl
  refine ⟨fun hl => ?_, fun hl => ?_⟩
  · rw [flushLine_live (by rwa [shiftFrame_line])] at acts
    refine ⟨_, acts, rfl, heldEnded_of_endHeld fun q => ?_, rfl, rfl, rfl⟩
    simp [reply, intake_abandon]
  · rw [acts, flushLine_idle (by rwa [shiftFrame_line])]
    rfl

/-! ### Every line's record at once: CLEAR and system reset -/

/-- `t` differs from `s` in the line table and the pending commits alone. -/
def State.RecordsOnly (s t : State) : Prop :=
  t = { s with
    engine := { s.engine with lines := t.engine.lines }
    commit := { s.commit with pendingCommit := t.commit.pendingCommit } }

theorem State.RecordsOnly.trans {s t u : State} (h : s.RecordsOnly t) (h' : t.RecordsOnly u) : s.RecordsOnly u := by
  unfold State.RecordsOnly at *
  rw [h] at h'
  exact h'

/-- The record of a line whose pending commit, if it has one, is cancelled. -/
def Line.cancelledWith (l : Line) (pending : Option Trigger) : Line :=
  { l with lastOutcome := if pending = none then l.lastOutcome else .cancelled }

theorem cancelPending_line (i j : LineNo) (s : State) :
    (cancelPending i s).line j = if j = i then (s.line i).cancelledWith (s.pendingOf i) else s.line j := by
  unfold cancelPending Line.cancelledWith
  cases h : s.pendingOf i with
  | none =>
    by_cases hj : j = i
    · subst hj
      simp
    · simp [hj]
  | some t => simp [setOutcome, State.line_setLine]

theorem cancelPending_pendingOf (i j : LineNo) (s : State) :
    (cancelPending i s).pendingOf j = if j = i then none else s.pendingOf j := by
  unfold cancelPending
  cases h : s.pendingOf i with
  | none =>
    by_cases hj : j = i
    · subst hj
      simp [h]
    · simp [hj]
  | some t => simp [State.pendingOf_setPending]

theorem cancelPending_recordsOnly (i : LineNo) (s : State) : s.RecordsOnly (cancelPending i s) := by
  unfold cancelPending
  split <;> rfl

/-- `f` gives line `i` the record that `g` makes of its record and its pending commit, cancels that commit, and changes
nothing else. -/
structure EmptiesLine (f : State → LineNo → State) (g : Line → Line) : Prop where
  line : ∀ (s : State) (i j : LineNo),
    (f s i).line j = if j = i then g ((s.line i).cancelledWith (s.pendingOf i)) else s.line j
  pendingOf : ∀ (s : State) (i j : LineNo), (f s i).pendingOf j = if j = i then none else s.pendingOf j
  recordsOnly : ∀ (s : State) (i : LineNo), s.RecordsOnly (f s i)

theorem emptiesLine_of_cancel {g : Line → Line} :
    EmptiesLine (fun s i => (cancelPending i s).setLine i (g ((cancelPending i s).line i))) g where
  line s i j := by
    by_cases hj : j = i <;> simp [State.line_setLine, cancelPending_line, hj]
  pendingOf s i j := by simp [cancelPending_pendingOf]
  recordsOnly s i := (cancelPending_recordsOnly i s).trans rfl

theorem clearLine_empties : EmptiesLine clearLine Line.retired := emptiesLine_of_cancel

theorem resetLine_empties : EmptiesLine resetLine Line.emptied := emptiesLine_of_cancel

section
variable {f : State → LineNo → State} {g : Line → Line} (hf : EmptiesLine f g)
include hf

theorem EmptiesLine.foldl_line (j : LineNo) : ∀ (l : List LineNo) (s : State), l.Nodup →
    (l.foldl f s).line j = (if j ∈ l then g ((s.line j).cancelledWith (s.pendingOf j)) else s.line j)
      ∧ (l.foldl f s).pendingOf j = if j ∈ l then none else s.pendingOf j
  | [], s, _ => by simp
  | i :: more, s, hn => by
    obtain ⟨hi, hmore⟩ := List.nodup_cons.mp hn
    obtain ⟨hl, hp⟩ := EmptiesLine.foldl_line j more (f s i) hmore
    rw [List.foldl_cons, hl, hp, hf.line, hf.pendingOf]
    by_cases hj : j = i
    · subst hj
      simp [hi]
    · simp [hj]

theorem EmptiesLine.foldl_recordsOnly : ∀ (l : List LineNo) (s : State), s.RecordsOnly (l.foldl f s)
  | [], _ => rfl
  | i :: more, s => (hf.recordsOnly s i).trans (EmptiesLine.foldl_recordsOnly more (f s i))

theorem EmptiesLine.allLines_line (s : State) (j : LineNo) :
    (allLines.foldl f s).line j = g ((s.line j).cancelledWith (s.pendingOf j)) := by
  rw [(hf.foldl_line j allLines s (by decide)).1, if_pos (mem_allLines j)]

theorem EmptiesLine.allLines_pendingOf (s : State) (j : LineNo) : (allLines.foldl f s).pendingOf j = none := by
  rw [(hf.foldl_line j allLines s (by decide)).2, if_pos (mem_allLines j)]

end

theorem urgencyOf_eq_false {s : State} {p : Port} (h : ∀ i, (s.line i).isLive = false) :
    urgencyOf s.engine.lines p = false := by
  refine List.any_eq_false.mpr fun i _ => ?_
  have hi : (s.line i).urges p = false := by simp [Line.urges, h i]
  exact Bool.eq_false_iff.mp hi

theorem exec_clear (rest : List Byte) (s : State) :
    exec (.clear rest) s = .next (partFrame .clear rest clearPart s) := rfl

/-- Settles O49: clearing line after line changes the records and the pending commits alone, and no line urges after
it. -/
theorem clearMakesEveryLineIdle : Obligations.ClearMakesEveryLineIdle := by
  unfold Obligations.ClearMakesEveryLineIdle
  intro s more hp hn
  generalize hb : (0x50 :: 0xFF :: more : List Byte) = bytes
  generalize hu : allLines.foldl clearLine (shiftFrame bytes s) = u
  have records : (shiftFrame bytes s).RecordsOnly u := hu ▸ clearLine_empties.foldl_recordsOnly _ _
  have lineOf : ∀ i, u.line i = ((s.line i).cancelledWith (s.pendingOf i)).retired := fun i => by
    rw [← hu, clearLine_empties.allLines_line, shiftFrame_line, shiftFrame_pendingOf]
  have acts : exec (.clear (0xFF :: more)) s = .next (reply (recomputeUrgency { u with
      portA := endHeld (fun _ => true) u.portA, portB := endHeld (fun _ => true) u.portB,
      incidents := u.incidents.cleared }, okWith [])) := by
    rw [exec_clear, partFrame_acts hp (by simpa [Config.frameMax] using hn) (by simp [LinkCode.lengthOk])]
    subst hu hb
    rfl
  have calm : ∀ p, urgencyOf u.engine.lines p = false := fun p => urgencyOf_eq_false fun i => by rw [lineOf]; rfl
  refine ⟨_, acts, fun i => ⟨lineOf i, ?_⟩, heldEnded_of_endHeld fun q => ?_, ?_, ?_, ?_, ?_, ?_⟩
  · show u.pendingOf i = none
    rw [← hu, clearLine_empties.allLines_pendingOf]
  · rw [records]
    cases q <;> rfl
  · simp only [reply, setHeld, recomputeUrgency, calm]
    rw [records]
    rfl
  all_goals
    rw [records]
    rfl

theorem exec_systemReset (s : State) : exec .systemReset s = execSystemReset s := rfl

/-- Settles O57: resetting line after line changes the records and the pending commits alone. -/
theorem systemResetEmptiesEveryLine : Obligations.SystemResetEmptiesEveryLine := by
  unfold Obligations.SystemResetEmptiesEveryLine
  refine fun s => ⟨fun h => by rw [exec_systemReset, execSystemReset, if_pos h], fun h => ?_⟩
  generalize hu : allLines.foldl resetLine s = u
  have records : s.RecordsOnly u := hu ▸ resetLine_empties.foldl_recordsOnly _ _
  have reset : exec .systemReset s = .next { recomputeUrgency { u with
      portA := u.portA.discarded, portB := u.portB.discarded, engine := { u.engine with lastChosen := .B },
      memQueue := u.memQueue.map Transaction.orphaned } with sysrstnLow := true } := by
    subst hu
    simp only [exec_systemReset, execSystemReset, h, Bool.false_eq_true, if_false, systemResetEffects]
  refine ⟨_, reset, fun i => ⟨?_, ?_⟩, fun p => ?_, ?_, ?_, ?_, ?_⟩
  · show u.line i = _
    rw [← hu, resetLine_empties.allLines_line]
    rfl
  · show u.pendingOf i = none
    rw [← hu, resetLine_empties.allLines_pendingOf]
  · rw [records]
    cases p <;> rfl
  all_goals
    rw [records]
    rfl

/-! ### Power-on reset -/

theorem exec_powerOnReset (s : State) :
    exec .powerOnReset s =
      .next { State.reset with porstnLow := true, sysrstnLow := s.sysrstnLow, pending := s.pending } := rfl

theorem initial_line (i : LineNo) : LineEngine.initial.lines[i] = Line.initial := by simp [LineEngine.initial]

/-- Settles O56: the state that a power-on reset leaves is `State.reset` but for the inputs and the waiting commands. -/
theorem powerOnResetLeavesTheInitialState : Obligations.PowerOnResetLeavesTheInitialState := by
  unfold Obligations.PowerOnResetLeavesTheInitialState
  intro s
  refine ⟨⟨_, exec_powerOnReset s, fun i => ⟨initial_line i, ?_, ?_⟩, rfl, rfl, rfl, rfl, rfl, fun p => ?_, rfl, rfl,
    rfl, rfl, rfl, rfl, rfl, rfl⟩, rfl, rfl⟩
  · simp [State.stagedOf, State.reset, CommitUnit.initial, zeroImage]
  · simp [State.pendingOf, State.reset, CommitUnit.initial]
  · cases p <;> exact ⟨rfl, rfl⟩

end Sys2Proof.Machine
end

section
/-! ## What a step keeps

A property that every command's effect keeps is kept by every step (`step_keeps`). The seventeen link commands are
taken together: a frame does nothing, or replaces the held result, or acts (`frameOfCode_keeps`). -/

namespace Sys2Proof.Machine

/-- A property that does not look at the waiting queue and that every command keeps is kept by every step. -/
theorem step_keeps {P : State → Prop} (hq : ∀ (s : State) (q : List Instr), P s → P { s with pending := q })
    (he : ∀ (c : Instr) (s t : State), P s → exec c s = .next t → P t) {s t : State} (h : P s)
    (hs : step s = .next t) : P t := by
  unfold step at hs
  split at hs
  · cases hs
    exact h
  · exact he _ _ _ (hq _ _ h) hs

/-! ### Frames -/

/-- What a link command does where its frame is judged to act (R151, check 7). -/
def linkAct (c : LinkCode) (i : LineNo) (args : List Byte) (s : State) : State × Held :=
  match c with
  | .result => (s, s.link.held)
  | .identify => identifyPart args s
  | .stage => stageLine i args s
  | .readStaged => readStagedLine i args s
  | .readActive => readActiveLine i args s
  | .arm => armLine i args s
  | .disarm => disarmLine i args s
  | .mark => markPart args s
  | .flush => flushLine i args s
  | .queryLine => queryLineReply i args s
  | .queryPart => queryPartReply args s
  | .engage => engagePart args s
  | .disengage => disengagePart args s
  | .takeIncident => takeIncidentPart args s
  | .setEnables => setEnablesPart args s
  | .clearOverflow => clearOverflowPart args s
  | .clear => clearPart args s

/-- `t` is a possible end of a frame of command `c`, from the state `u` in which the frame has been shifted. -/
def FrameEnds (c : LinkCode) (u t : State) : Prop :=
  (∃ status, t = setHeld (statusOnly status) u) ∨ ∃ i args, t = reply (linkAct c i args u)

theorem endFrame_ends {c : LinkCode} {rest : List Byte} {judged : State → State} {s : State}
    (hp : s.porstnLow = false) (hj : ∀ u, FrameEnds c u (judged u)) :
    FrameEnds c (shiftFrame (c.toByte :: rest) s) (endFrame c rest judged s) := by
  simp only [endFrame, hp, Bool.false_eq_true, if_false]
  split
  · exact .inl ⟨_, rfl⟩
  · exact hj _

theorem lineFrame_ends {c : LinkCode} {rest : List Byte} {act : LineNo → List Byte → State → State × Held} {s : State}
    (hp : s.porstnLow = false) (hact : ∀ i args u, act i args u = linkAct c i args u) :
    FrameEnds c (shiftFrame (c.toByte :: rest) s) (lineFrame c rest act s) := by
  refine endFrame_ends hp fun u => ?_
  split
  · exact .inl ⟨_, rfl⟩
  · exact .inr ⟨_, _, by rw [hact]⟩

theorem partFrame_ends {c : LinkCode} {rest : List Byte} {act : List Byte → State → State × Held} {s : State}
    (hp : s.porstnLow = false) (hact : ∀ i args u, act args u = linkAct c i args u) :
    FrameEnds c (shiftFrame (c.toByte :: rest) s) (partFrame c rest act s) := by
  refine endFrame_ends hp fun u => ?_
  split
  · exact .inr ⟨0, _, by rw [hact 0]⟩
  · exact .inl ⟨_, rfl⟩

theorem frameOfCode_ends {c : LinkCode} {rest : List Byte} {s : State} (hp : s.porstnLow = false) :
    FrameEnds c (shiftFrame (c.toByte :: rest) s) (frameOfCode c rest s) := by
  cases c with
  | result => exact endFrame_ends hp fun u => .inr ⟨0, [], rfl⟩
  | stage | readStaged | readActive | arm | disarm | flush | queryLine =>
    exact lineFrame_ends hp fun _ _ _ => rfl
  | identify | mark | queryPart | engage | disengage | takeIncident | setEnables | clearOverflow | clear =>
    exact partFrame_ends hp fun _ _ _ => rfl

theorem frameOfCode_low {c : LinkCode} {rest : List Byte} {s : State} (hp : s.porstnLow = true) :
    frameOfCode c rest s = s := by
  cases c <;> simp only [frameOfCode, lineFrame, partFrame, endFrame_low hp]

/-- The link command and the frame bytes of a command that is a frame of the link. -/
def Instr.linkCommand : Instr → Option (LinkCode × List Byte)
  | .result rest => some (.result, rest)
  | .identify rest => some (.identify, rest)
  | .stage rest => some (.stage, rest)
  | .readStaged rest => some (.readStaged, rest)
  | .readActive rest => some (.readActive, rest)
  | .arm rest => some (.arm, rest)
  | .disarm rest => some (.disarm, rest)
  | .mark rest => some (.mark, rest)
  | .flush rest => some (.flush, rest)
  | .queryLine rest => some (.queryLine, rest)
  | .queryPart rest => some (.queryPart, rest)
  | .engage rest => some (.engage, rest)
  | .disengage rest => some (.disengage, rest)
  | .takeIncident rest => some (.takeIncident, rest)
  | .setEnables rest => some (.setEnables, rest)
  | .clearOverflow rest => some (.clearOverflow, rest)
  | .clear rest => some (.clear, rest)
  | _ => none

theorem exec_linkCommand {i : Instr} {c : LinkCode} {rest : List Byte} (h : Instr.linkCommand i = some (c, rest))
    (s : State) : exec i s = .next (frameOfCode c rest s) := by
  cases i <;> cases h <;> rfl

/-- The property survives a frame: the shift, a status that replaces the held result, and every act of a command. -/
structure KeptByFrames (P : State → Prop) : Prop where
  shift : ∀ (bytes : List Byte) (s : State), s.porstnLow = false → P s → P (shiftFrame bytes s)
  status : ∀ (status : LinkStatus) (s : State), s.porstnLow = false → P s → P (setHeld (statusOnly status) s)
  act : ∀ (c : LinkCode) (i : LineNo) (args : List Byte) (s : State), s.porstnLow = false → P s →
    P (reply (linkAct c i args s))

theorem KeptByFrames.frameOfCode {P : State → Prop} (hP : KeptByFrames P) (c : LinkCode) (rest : List Byte) {s : State}
    (h : P s) : P (frameOfCode c rest s) := by
  cases hp : s.porstnLow with
  | true => rwa [frameOfCode_low hp]
  | false =>
    obtain ⟨status, ht⟩ | ⟨i, args, ht⟩ := frameOfCode_ends (c := c) (rest := rest) hp
    · rw [ht]
      exact hP.status _ _ hp (hP.shift _ _ hp h)
    · rw [ht]
      exact hP.act _ _ _ _ hp (hP.shift _ _ hp h)

theorem KeptByFrames.linkFrame {P : State → Prop} (hP : KeptByFrames P) (bytes : List Byte) {s : State} (h : P s) :
    P (linkFrame bytes s) := by
  unfold Machine.linkFrame
  split
  · exact h
  · rename_i hp
    rw [Bool.not_eq_true] at hp
    split
    · exact hP.shift _ _ hp h
    · split
      · exact hP.frameOfCode _ _ h
      · exact hP.status _ _ hp (hP.shift _ _ hp h)

/-- A property that frames keep, and every command that is no frame of the link, is kept by every command. -/
theorem exec_keeps {P : State → Prop} (hP : KeptByFrames P)
    (hb : ∀ (c : Instr) (s t : State), Instr.linkCommand c = none → P s → exec c s = .next t → P t)
    (c : Instr) (s t : State) (h : P s) (hs : exec c s = .next t) : P t := by
  cases hc : Instr.linkCommand c with
  | none => exact hb c s t hc h hs
  | some x =>
    rw [exec_linkCommand hc] at hs
    cases hs
    exact hP.frameOfCode _ _ h

end Sys2Proof.Machine
end

section
/-! ## The open lists and the memory queue

What keeps one intake in order (`Intake.Ok`) and the ISSUED entries matched with the transactions. An operation on
entries that are not waiting is a map of the list (`Intake.Ok.map`); a take alone moves an entry up in rank, and it
moves the first that can be taken (`Intake.OffersAt`). -/

namespace Sys2Proof.Machine

theorem Entry.isHeld_iff_rank (e : Entry) : Entry.isHeld e = true ↔ EntryState.rank e.state = 1 := by
  unfold Entry.isHeld
  cases e.state <;> decide

theorem Entry.isHeld_eq_false {e : Entry} (h : EntryState.rank e.state ≠ 1) : Entry.isHeld e = false :=
  Bool.eq_false_iff.mpr fun hh => h ((Entry.isHeld_iff_rank e).mp hh)

theorem Intake.Ok.fieldsOk {it : Intake} (h : it.Ok) {x : Entry} (hx : x ∈ it.openList) : Entry.fieldsOk x := by
  obtain ⟨-, -, hmem, -⟩ := h
  exact (hmem x hx).2

theorem Intake.Ok.deadline_iff {it : Intake} (h : it.Ok) :
    it.deadline.isSome = true ↔ ∃ e ∈ it.openList, Entry.isHeld e = true := by
  obtain ⟨-, -, -, hheld⟩ := h
  exact hheld

/-! ### Maps of an open list -/

/-- A map that keeps tags, the presence of fields and ranks, but that it may end held entries, keeps the intake in
order, where the deadline is right afterwards. -/
theorem Intake.Ok.map {it it' : Intake} {f : Entry → Entry} (h : it.Ok)
    (hl : it'.openList = it.openList.map f) (hn : it'.nextTag = it.nextTag)
    (hf : ∀ x ∈ it.openList, EntryState.rank (f x).state = EntryState.rank x.state
      ∨ (EntryState.rank x.state = 1 ∧ EntryState.rank (f x).state = 0))
    (htag : ∀ x, (f x).tag = x.tag) (hfields : ∀ x ∈ it.openList, Entry.fieldsOk (f x))
    (hd : it'.deadline.isSome = true ↔ ∃ e ∈ it.openList, Entry.isHeld (f e) = true) : it'.Ok := by
  obtain ⟨hlen, hpair, hmem, -⟩ := h
  refine ⟨by simpa [hl] using hlen, ?_, ?_, ?_⟩
  · rw [hl, List.pairwise_map]
    refine List.Pairwise.imp_of_mem (fun {a b} ha hb hab => ?_) hpair
    obtain ⟨hle, hone, hlt⟩ := hab
    have ra := hf a ha
    have rb := hf b hb
    exact ⟨by omega, by omega, by rwa [htag, htag]⟩
  · intro y hy
    rw [hl] at hy
    obtain ⟨x, hx, rfl⟩ := List.mem_map.mp hy
    rw [htag, hn]
    exact ⟨(hmem x hx).1, hfields x hx⟩
  · rw [hd, hl]
    simp

theorem Intake.issuedTags_map {it it' : Intake} {f : Entry → Entry} (hl : it'.openList = it.openList.map f)
    (htag : ∀ x, (f x).tag = x.tag) (hi : ∀ x ∈ it.openList, (f x).state = .issued ↔ x.state = .issued) :
    it'.issuedTags = it.issuedTags := by
  unfold Intake.issuedTags
  rw [hl, List.filter_map, List.map_map, List.filter_congr (q := fun e => e.state == .issued)]
  · exact List.map_congr_left fun x _ => htag x
  · intro x hx
    have h := hi x hx
    by_cases hx : x.state = .issued
    · simp [hx, h.mpr hx]
    · have hy : (f x).state ≠ .issued := fun hy => hx (h.mp hy)
      simp [hx, hy]

/-! Releases. -/

section
variable {f : Entry → Entry} (hf : Releases f)
include hf

theorem Releases.rank (x : Entry) : EntryState.rank (f x).state = EntryState.rank x.state := by
  obtain h | ⟨hp, h⟩ := hf x <;> rw [h]
  rw [hp]
  rfl

theorem Releases.isHeld (x : Entry) : Entry.isHeld (f x) = Entry.isHeld x := by
  obtain h | ⟨hp, h⟩ := hf x <;> rw [h]
  simp [Entry.isHeld, hp]

theorem Releases.fieldsOk {x : Entry} (hx : Entry.fieldsOk x) : Entry.fieldsOk (f x) := by
  obtain h | ⟨hp, h⟩ := hf x <;> rw [h]
  · exact hx
  · simpa [Entry.fieldsOk, hp] using hx

theorem Releases.issued_iff (x : Entry) : (f x).state = .issued ↔ x.state = .issued := by
  obtain h | ⟨hp, h⟩ := hf x <;> rw [h]
  simp [hp]

theorem Releases.of_not_parked {x : Entry} (hx : x.state ≠ .parked) : f x = x :=
  (hf x).resolve_right fun h => hx h.1

theorem Intake.Ok.release {it it' : Intake} (h : it.Ok) (hl : it'.openList = it.openList.map f)
    (hn : it'.nextTag = it.nextTag) (hd : it'.deadline = it.deadline) : it'.Ok :=
  h.map hl hn (fun x _ => .inl (hf.rank x)) hf.tag
    (fun x hx => hf.fieldsOk (h.fieldsOk hx))
    (by simpa only [hd, hf.isHeld] using h.deadline_iff)

end

/-! The end of held entries. -/

/-- An entry ended with ERROR where it is held and picked. -/
def endEntry (which : Entry → Bool) (e : Entry) : Entry :=
  if Entry.isHeld e && which e then Entry.answered .error 0 e else e

theorem endEntry_cases (which : Entry → Bool) (e : Entry) :
    (endEntry which e = e ∧ (Entry.isHeld e = true → which e = false))
      ∨ (Entry.isHeld e = true ∧ which e = true ∧ endEntry which e = Entry.answered .error 0 e) := by
  unfold endEntry
  cases hh : Entry.isHeld e <;> cases hw : which e <;> simp

theorem endEntry_tag (which : Entry → Bool) (e : Entry) : (endEntry which e).tag = e.tag := by
  obtain ⟨h, -⟩ | ⟨-, -, h⟩ := endEntry_cases which e <;> rw [h]
  rfl

theorem endHeld_openList (which : Entry → Bool) (it : Intake) :
    (endHeld which it).openList = it.openList.map (endEntry which) := by
  rw [endHeld_eq]
  rfl

theorem endEntry_isHeld (which : Entry → Bool) (e : Entry) :
    Entry.isHeld (endEntry which e) = true ↔ Entry.isHeld e = true ∧ which e = false := by
  obtain ⟨h, hw⟩ | ⟨hh, hw, h⟩ := endEntry_cases which e
  · rw [h]
    exact ⟨fun hh => ⟨hh, hw hh⟩, fun hh => hh.1⟩
  · simp [h, hw, Entry.answered, Entry.isHeld]

theorem endEntry_issued_iff (which : Entry → Bool) (e : Entry) :
    (endEntry which e).state = .issued ↔ e.state = .issued := by
  obtain ⟨h, -⟩ | ⟨hh, -, h⟩ := endEntry_cases which e
  · rw [h]
  · have hne : e.state ≠ .issued := fun hi => by simp [Entry.isHeld, hi] at hh
    simp [h, Entry.answered, hne]

theorem answered_fieldsOk {status : Status} {data : Data} {e : Entry} (h : Entry.fieldsOk e) (hw : e.state ≠ .waiting) :
    Entry.fieldsOk (Entry.answered status data e) := by
  have hc : e.cls.isSome = true := h.1.mpr hw
  simp [Entry.fieldsOk, Entry.answered, hc]

theorem isHeld_not_waiting {e : Entry} (h : Entry.isHeld e = true) : e.state ≠ .waiting := fun hw => by
  simp [Entry.isHeld, hw] at h

/-- At most one entry of an ordered list is held. -/
theorem Intake.Ok.held_unique {it : Intake} (h : it.Ok) {a b : Entry} (ha : a ∈ it.openList) (hb : b ∈ it.openList)
    (hha : Entry.isHeld a = true) (hhb : Entry.isHeld b = true) : a = b := by
  rw [Entry.isHeld_iff_rank] at hha hhb
  obtain ⟨before, after, hl⟩ := List.append_of_mem ha
  obtain ⟨-, hpair, -⟩ := h
  rw [hl] at hpair hb
  obtain ⟨-, hafter, hbefore⟩ := List.pairwise_append.mp hpair
  rcases List.mem_append.mp hb with hb | hb
  · exact absurd ⟨hhb, hha⟩ (hbefore b hb a (List.mem_cons_self ..)).2.1
  · rcases List.mem_cons.mp hb with rfl | hb
    · rfl
    · exact absurd ⟨hha, hhb⟩ ((List.pairwise_cons.mp hafter).1 b hb).2.1

theorem Intake.Ok.endHeld {it : Intake} (h : it.Ok) (which : Entry → Bool) : (endHeld which it).Ok := by
  refine h.map (endHeld_openList which it) (by rw [endHeld_eq]) (fun x hx => ?_) (endEntry_tag which)
    (fun x hx => ?_) ?_
  · obtain ⟨hx, -⟩ | ⟨hh, -, hx⟩ := endEntry_cases which x <;> rw [hx]
    · exact .inl rfl
    · exact .inr ⟨(Entry.isHeld_iff_rank x).mp hh, rfl⟩
  · have hfields := h.fieldsOk hx
    obtain ⟨hx, -⟩ | ⟨hh, -, hx⟩ := endEntry_cases which x <;> rw [hx]
    · exact hfields
    · exact answered_fieldsOk hfields (isHeld_not_waiting hh)
  · simp only [endHeld_eq, endEntry_isHeld]
    split
    · rename_i hany
      obtain ⟨x, hx, hp⟩ := List.any_eq_true.mp hany
      obtain ⟨hhx, hwx⟩ := Bool.and_eq_true_iff.mp hp
      simp only [Option.isSome_none, Bool.false_eq_true, false_iff]
      rintro ⟨y, hy, hhy, hwy⟩
      rw [h.held_unique hy hx hhy hhx, hwx] at hwy
      cases hwy
    · rename_i hany
      rw [h.deadline_iff]
      refine exists_congr fun y => and_congr_right fun hy => (and_iff_left_of_imp fun hhy => ?_).symm
      refine Bool.eq_false_iff.mpr fun hwy => hany (List.any_eq_true.mpr ⟨y, hy, by simp [hhy, hwy]⟩)

theorem endHeld_issuedTags (which : Entry → Bool) (it : Intake) : (endHeld which it).issuedTags = it.issuedTags :=
  Intake.issuedTags_map (endHeld_openList which it) (endEntry_tag which) fun x _ => endEntry_issued_iff which x

theorem endHeld_openList_eq_nil {which : Entry → Bool} {it : Intake} (h : it.openList = []) :
    (endHeld which it).openList = [] := by
  rw [endHeld_openList, h]
  rfl

/-! ### The queues of a whole state -/

/-- The queues stay in order where each intake does and keeps its ISSUED tags, and the memory queue and the reset inputs
stay. -/
theorem State.QueuesOk.of_intakes {s t : State} (h : s.QueuesOk) (hit : ∀ q, (s.intake q).Ok → (t.intake q).Ok)
    (htags : ∀ q, (t.intake q).issuedTags = (s.intake q).issuedTags) (hm : t.memQueue = s.memQueue)
    (hr : t.inReset = s.inReset) (hempty : ∀ q, (s.intake q).openList = [] → (t.intake q).openList = []) :
    t.QueuesOk := by
  obtain ⟨hok, ⟨hlen, hmem⟩, hreset⟩ := h
  refine ⟨fun q => hit q (hok q), ⟨hm ▸ hlen, fun q => ?_⟩, fun hin q => hempty q (hreset (hr ▸ hin) q)⟩
  rw [hm, htags, hmem]

theorem State.QueuesOk.congr {s t : State} (h : s.QueuesOk) (hit : ∀ q, t.intake q = s.intake q)
    (hm : t.memQueue = s.memQueue) (hr : t.inReset = s.inReset) : t.QueuesOk :=
  h.of_intakes (fun q hq => (hit q).symm ▸ hq) (fun q => by rw [hit]) hm hr fun q hq => by rw [hit, hq]

theorem State.QueuesOk.release {s t : State} {f : Entry → Entry} (h : s.QueuesOk) (hf : Releases f)
    (hit : ∀ q, t.intake q = { s.intake q with openList := (s.intake q).openList.map f }) (hm : t.memQueue = s.memQueue)
    (hr : t.inReset = s.inReset) : t.QueuesOk :=
  h.of_intakes (fun q hq => hq.release hf (by rw [hit]) (by rw [hit]) (by rw [hit]))
    (fun q => Intake.issuedTags_map (by rw [hit]) hf.tag fun x _ => hf.issued_iff x) hm hr
    fun q hq => by rw [hit, hq]; rfl

theorem State.QueuesOk.endHeld {s t : State} {which : Entry → Bool} (h : s.QueuesOk)
    (hit : ∀ q, t.intake q = endHeld which (s.intake q)) (hm : t.memQueue = s.memQueue) (hr : t.inReset = s.inReset) :
    t.QueuesOk :=
  h.of_intakes (fun q hq => hit q ▸ hq.endHeld which) (fun q => by rw [hit, endHeld_issuedTags]) hm hr
    fun q hq => by rw [hit, endHeld_openList_eq_nil hq]

end Sys2Proof.Machine
end

section
/-! ## What a take can do

Said once, for the queues and for the line table: the taken entry meets a fate (`TakeFate`), one line's record moves
(`TakeMove`), and the rest follows from the two. -/

namespace Sys2Proof.Machine

/-! ### The offered entry in its list -/

/-- The offered entry stands behind the entries already taken and before those still waiting. -/
structure Intake.OffersAt (it : Intake) (e : Entry) (before after : List Entry) : Prop where
  split : it.openList = before ++ e :: after
  taken : ∀ x ∈ before, EntryState.rank x.state = 0 ∧ x.tag < e.tag
  waiting : ∀ x ∈ after, x.state = .waiting ∧ e.tag < x.tag
  state : e.state = .released ∨ e.state = .waiting

theorem Intake.offer_cases {it : Intake} {e : Entry} (h : it.offer = some e) :
    (∀ x ∈ it.openList, x.state ≠ .parked)
      ∧ (it.openList.find? (fun x => x.state == .released) = some e
        ∨ (it.openList.find? (fun x => x.state == .released) = none
          ∧ it.openList.find? (fun x => x.state == .waiting) = some e)) := by
  unfold Intake.offer at h
  split at h
  · cases h
  · rename_i hany
    refine ⟨fun x hx hp => hany (List.any_eq_true.mpr ⟨x, hx, by simp [hp]⟩), ?_⟩
    split at h
    · rename_i hf
      exact .inl (hf.trans h)
    · rename_i hf
      exact .inr ⟨hf, h⟩

theorem EntryState.rank_waiting : EntryState.rank .waiting = 2 := rfl

theorem EntryState.rank_released : EntryState.rank .released = 1 := rfl

theorem EntryState.eq_waiting_of_rank {st : EntryState} (h : 2 ≤ EntryState.rank st) : st = .waiting := by
  cases st with
  | waiting => rfl
  | issued | ready | parked | released => simp [EntryState.rank] at h

theorem Intake.Ok.offersAt {it : Intake} {e : Entry} (h : it.Ok) (ho : it.offer = some e) :
    ∃ before after, it.OffersAt e before after := by
  obtain ⟨-, hpair, -⟩ := h
  obtain ⟨hparked, hfind⟩ := Intake.offer_cases ho
  have place : ∀ before after, it.openList = before ++ e :: after → (e.state = .released ∨ e.state = .waiting) →
      (∀ x ∈ before, Entry.before x e → EntryState.rank x.state = 0) → it.OffersAt e before after := by
    intro before after hl hstate hz
    rw [hl] at hpair
    obtain ⟨-, hafter, hbefore⟩ := List.pairwise_append.mp hpair
    refine ⟨hl, fun x hx => ?_, fun x hx => ?_, hstate⟩
    · have hxe := hbefore x hx e (List.mem_cons_self ..)
      exact ⟨hz x hx hxe, hxe.2.2⟩
    · obtain ⟨hle, hnot, hlt⟩ := (List.pairwise_cons.mp hafter).1 x hx
      refine ⟨EntryState.eq_waiting_of_rank ?_, hlt⟩
      obtain hs | hs := hstate
      · simp only [hs, EntryState.rank_released, true_and] at hle hnot
        omega
      · rwa [hs, EntryState.rank_waiting] at hle
  obtain hf | ⟨hnone, hf⟩ := hfind
  · obtain ⟨hs, before, after, hl, -⟩ := List.find?_eq_some_iff_append.mp hf
    have hs : e.state = .released := by simpa using hs
    refine ⟨before, after, place before after hl (.inl hs) fun x _ hx => ?_⟩
    obtain ⟨hle, hnot, -⟩ := hx
    simp only [hs, EntryState.rank_released, and_true] at hle hnot
    omega
  · obtain ⟨hs, before, after, hl, hfirst⟩ := List.find?_eq_some_iff_append.mp hf
    refine ⟨before, after, place before after hl (.inr (by simpa using hs)) fun x hx _ => ?_⟩
    have hin : x ∈ it.openList := hl ▸ List.mem_append_left _ hx
    have hw : x.state ≠ .waiting := by simpa using hfirst x hx
    have hr : x.state ≠ .released := by simpa using List.find?_eq_none.mp hnone x hin
    have hp := hparked x hin
    cases hst : x.state <;> simp_all [EntryState.rank]

section
variable {it it' : Intake} {e : Entry} {before after : List Entry} (h : it.OffersAt e before after)
include h

/-- The map of a take changes the taken entry alone: no entry of its list is parked. -/
theorem Intake.OffersAt.map_eq {own other : Entry → Entry} (ho : Releases other) :
    it.openList.map (fun x => if x.tag = e.tag then own x else other x) = before ++ own e :: after := by
  have stays : ∀ l : List Entry, (∀ x ∈ l, x.state ≠ .parked ∧ x.tag ≠ e.tag) →
      l.map (fun x => if x.tag = e.tag then own x else other x) = l := by
    intro l hl
    refine (List.map_congr_left fun x hx => ?_).trans (List.map_id' l)
    obtain ⟨hp, ht⟩ := hl x hx
    rw [if_neg ht, ho.of_not_parked hp]
  rw [h.split, List.map_append, List.map_cons, if_pos rfl, stays before fun x hx => ⟨fun hp => ?_, ?_⟩,
    stays after fun x hx => ⟨fun hp => ?_, ?_⟩]
  · obtain ⟨hw, -⟩ := h.waiting x hx
    simp [hw] at hp
  · exact (h.waiting x hx).2.ne'
  · have hz := (h.taken x hx).1
    simp [hp, EntryState.rank] at hz
  · exact (h.taken x hx).2.ne

theorem Intake.OffersAt.not_held {x : Entry} (hx : x ∈ before ∨ x ∈ after) : Entry.isHeld x = false := by
  rcases hx with hx | hx
  · exact Entry.isHeld_eq_false (by rw [(h.taken x hx).1]; decide)
  · exact Entry.isHeld_eq_false (by rw [(h.waiting x hx).1]; decide)

/-- The intake is in order after the take, whatever the taken entry has become that a take can make of it. -/
theorem Intake.Ok.afterTake (hok : it.Ok) {e' : Entry} (hl : it'.openList = before ++ e' :: after)
    (hn : it'.nextTag = it.nextTag) (htag : e'.tag = e.tag) (hrank : EntryState.rank e'.state ≤ 1)
    (hfields : Entry.fieldsOk e') (hd : it'.deadline.isSome = true ↔ Entry.isHeld e' = true) : it'.Ok := by
  obtain ⟨hlen, hpair, hmem, -⟩ := hok
  rw [h.split] at hlen hpair hmem
  obtain ⟨hbefore, hafter, hcross⟩ := List.pairwise_append.mp hpair
  refine ⟨by simpa [hl] using hlen, ?_, fun x hx => ?_, ?_⟩
  · rw [hl]
    refine List.pairwise_append.mpr ⟨hbefore, List.pairwise_cons.mpr ⟨fun y hy => ?_, (List.pairwise_cons.mp hafter).2⟩,
      fun x hx y hy => ?_⟩
    · obtain ⟨hy, hlt⟩ := h.waiting y hy
      simp only [Entry.before, hy, EntryState.rank_waiting, htag]
      omega
    · rcases List.mem_cons.mp hy with rfl | hy
      · obtain ⟨hx, hlt⟩ := h.taken x hx
        simp only [Entry.before, hx, htag]
        omega
      · exact hcross x hx y (List.mem_cons_of_mem _ hy)
  · rw [hn]
    rw [hl] at hx
    rcases List.mem_append.mp hx with hx | hx
    · exact hmem x (List.mem_append_left _ hx)
    · rcases List.mem_cons.mp hx with rfl | hx
      · rw [htag]
        exact ⟨(hmem e (by simp)).1, hfields⟩
      · exact hmem x (by simp [hx])
  · rw [hd, hl]
    constructor
    · exact fun hh => ⟨e', by simp, hh⟩
    · rintro ⟨x, hx, hh⟩
      rcases List.mem_append.mp hx with hx | hx
      · rw [h.not_held (.inl hx)] at hh
        cases hh
      · rcases List.mem_cons.mp hx with rfl | hx
        · exact hh
        · rw [h.not_held (.inr hx)] at hh
          cases hh

/-- The ISSUED tags after the take: those of before, and the taken entry's where it has become ISSUED. -/
theorem Intake.OffersAt.issuedTags {e' : Entry} (hl : it'.openList = before ++ e' :: after) :
    it'.issuedTags = it.issuedTags ++ (if e'.state = .issued then [e'.tag] else []) := by
  have none : after.filter (fun x => x.state == .issued) = [] :=
    List.filter_eq_nil_iff.mpr fun x hx => by simp [(h.waiting x hx).1]
  have he : e.state ≠ .issued := by
    obtain hs | hs := h.state <;> simp [hs]
  unfold Intake.issuedTags
  rw [hl, h.split]
  by_cases hi : e'.state = .issued <;> simp [none, he, hi]

end

end Sys2Proof.Machine
end

section
namespace Sys2Proof.Machine

/-! ### The fate of the taken entry -/

/-- The operation of a line that parks as `op`. -/
def ParkedOp.lineOp : ParkedOp → LineOp
  | .pop => .pop
  | .push => .push

/-- An operation that cannot proceed on this line and parks: a pop of an empty queue, a push to a full one, under
STALL. -/
def Line.Blocks (l : Line) : ParkedOp → Prop
  | .pop => l.fill = 0 ∧ l.active.underrunPolicy = 2
  | .push => l.active.isQueue = true ∧ l.L ≤ l.fill ∧ l.active.overflowPolicy = 2

/-- What a take makes of its entry, of the deadline of its port, and which transactions it appends. -/
inductive TakeFate (s : State) (p : Port) (e : Entry) (d : Decoded) :
    (Entry → Entry) → Option (BitVec 32) → List Transaction → Prop
  | issues (x : Transaction) (origin : x.origin = some { port := p, tag := e.tag }) :
    TakeFate s p e d (Entry.nowIs d .issued) (if e.state = .released then none else (s.intake p).deadline) [x]
  | answers (status : Status) (data : Data) :
    TakeFate s p e d (Entry.nowReady d status data) (if e.state = .released then none else (s.intake p).deadline) []
  | parks (i : LineNo) (op : ParkedOp) (decoded : d = .operation i op.lineOp) (blocks : (s.line i).Blocks op) :
    TakeFate s p e d (Entry.nowIs d .parked) (deadlineIfParked s p e d) []

/-- `t` differs from `s` in the intakes, the line engine, the commit unit, the memory queue, the incidents on their way,
the tick count and the waiting commands alone. -/
structure SameOutside (s t : State) : Prop where
  incidents : t.incidents = s.incidents
  link : t.link = s.link
  porstnLow : t.porstnLow = s.porstnLow
  sysrstnLow : t.sysrstnLow = s.sysrstnLow

theorem SameOutside.inReset {s t : State} (h : SameOutside s t) : t.inReset = s.inReset := by
  rw [State.inReset, h.porstnLow, h.sysrstnLow, State.inReset]

theorem SameOutside.trans {s t u : State} (h : SameOutside s t) (h' : SameOutside t u) : SameOutside s u :=
  ⟨h'.incidents.trans h.incidents, h'.link.trans h.link, h'.porstnLow.trans h.porstnLow,
    h'.sysrstnLow.trans h.sysrstnLow⟩

/-- What a take leaves in the open lists and the memory queue, `other` being what it does to the other entries. -/
structure TakeLeaves (s u : State) (p : Port) (e : Entry) (d : Decoded) (other : Entry → Entry) : Prop where
  releases : Releases other
  fate : ∃ own deadline issued, TakeFate s p e d own deadline issued
    ∧ (∀ q, u.intake q =
      { s.intake q with
        openList := (s.intake q).openList.map fun x => if q = p ∧ x.tag = e.tag then own x else other x,
        deadline := if q = p then deadline else (s.intake q).deadline })
    ∧ u.memQueue = s.memQueue ++ issued
  outside : SameOutside s u

theorem State.IntakesAfter.deadline {s t : State} {p : Port} {e : Entry} {own other : Entry → Entry}
    (h : s.IntakesAfter t p e own other) (q : Port) :
    t.intake q =
      { s.intake q with
        openList := (s.intake q).openList.map fun x => if q = p ∧ x.tag = e.tag then own x else other x,
        deadline := if q = p then (if e.state = .released then none else (s.intake p).deadline)
          else (s.intake q).deadline } := by
  rw [h q]
  by_cases hq : q = p
  · subst hq
    simp
  · simp [hq]

section
variable {s u : State} {p : Port} {e : Entry} {d : Decoded} {other : Entry → Entry}

theorem takeLeaves_of_issue (ho : Releases other) {x : Transaction} (hx : x.origin = some { port := p, tag := e.tag })
    (hi : s.IntakesAfter u p e (Entry.nowIs d .issued) other) (hm : u.memQueue = s.memQueue ++ [x])
    (hs : SameOutside s u) : TakeLeaves s u p e d other :=
  ⟨ho, ⟨_, _, _, .issues x hx, hi.deadline, hm⟩, hs⟩

theorem takeLeaves_of_answer (ho : Releases other) {status : Status} {data : Data}
    (hi : s.IntakesAfter u p e (Entry.nowReady d status data) other) (hm : u.memQueue = s.memQueue)
    (hs : SameOutside s u) : TakeLeaves s u p e d other :=
  ⟨ho, ⟨_, _, _, .answers status data, hi.deadline, by rw [hm, List.append_nil]⟩, hs⟩

theorem intake_park (s : State) (p q : Port) (e : Entry) (due : Option (BitVec 32)) :
    (park p e due s).intake q =
      { s.intake q with
        openList := (s.intake q).openList.map fun x =>
          if q = p ∧ x.tag = e.tag then { x with state := .parked } else x,
        deadline := if q = p then due else (s.intake q).deadline } := by
  rw [park, intake_setDeadline]
  by_cases hq : q = p
  · subst hq
    rw [if_pos rfl, intake_updateEntry_map]
    simp
  · rw [if_neg hq, intake_updateEntry_map]
    simp [hq]

theorem takeLeaves_park {i : LineNo} {op : ParkedOp} (hd : d = .operation i op.lineOp) (hb : (s.line i).Blocks op) :
    TakeLeaves s (park p e (deadlineIfParked s p e d) (beginTake p e d s)) p e d fun x => x := by
  refine ⟨releases_id, ⟨_, _, _, .parks i op hd hb, fun q => ?_, by simp⟩, ?_⟩
  · rw [intake_park, intake_beginTake]
    simp only [List.map_map]
    congr 1
    · apply List.map_congr_left
      intro x _
      by_cases hx : q = p ∧ x.tag = e.tag <;> simp [hx, Entry.nowIs]
    · by_cases hq : q = p <;> simp [hq]
  · constructor <;> simp

end

/-! ### The move of one line -/

/-- The entries parked on an operation of line `i` released, where one is named. -/
def releasing (i : LineNo) : Option ParkedOp → Entry → Entry
  | none => fun x => x
  | some op => Entry.releasedFrom i op

/-- The record that a take leaves of line `i`, the operation whose parked entries it releases there, and whether it
recomputes urgency. -/
inductive TakeMove (s : State) (p : Port) (d : Decoded) : LineNo → Line → Option ParkedOp → Bool → Prop
  | keeps (i : LineNo) : TakeMove s p d i (s.line i) none false
  | walks (i : LineNo) (op : LineOp) (decoded : d = .operation i op)
    (access : op = .walkRead ∨ op = .walkPeek ∨ op = .walkAmend) :
    TakeMove s p d i ((s.line i).advanceWalk p) none false
  | delayPushes (i : LineNo) (decoded : d = .operation i .push) (delay : (s.line i).active.isQueue = false) :
    TakeMove s p d i (s.line i).delayPush none false
  | enqueues (i : LineNo) (decoded : d = .operation i .push) (queue : (s.line i).active.isQueue = true)
    (room : (s.line i).fill < (s.line i).L) :
    TakeMove s p d i (s.line i).enqueue (some .pop) true
  | displaces (i : LineNo) (decoded : d = .operation i .push) (queue : (s.line i).active.isQueue = true)
    (full : (s.line i).L ≤ (s.line i).fill) :
    TakeMove s p d i (s.line i).displace (some .pop) false
  | dequeues (i : LineNo) (decoded : d = .operation i .pop) (filled : 0 < (s.line i).fill) :
    TakeMove s p d i (s.line i).dequeue (some .push) true
  | discards (i : LineNo) (n : Nat) (decoded : d = .operation i .discard) (removes : 0 < min n (s.line i).fill) :
    TakeMove s p d i ((s.line i).discard n) (some .push) true

/-- `u` has the line table of `s` but for the record `l` of line `i`, its commit unit and its mode, and urgencies that
are recomputed or kept. -/
structure LineMoved (s u : State) (i : LineNo) (l : Line) (recomputed : Bool) : Prop where
  line : ∀ j, u.line j = if j = i then l else s.line j
  mode : u.engine.mode = s.engine.mode
  commit : u.commit = s.commit
  urgency : if recomputed then u.UrgencyOk else ∀ q, u.urgent q = s.urgent q

/-- `u` is what a take leaves before a wrap report, line `i` being the one it moves. -/
def TakeDone (s : State) (p : Port) (e : Entry) (d : Decoded) (u : State) (i : LineNo) : Prop :=
  ∃ l released recomputed, TakeMove s p d i l released recomputed ∧ TakeLeaves s u p e d (releasing i released)
    ∧ LineMoved s u i l recomputed

theorem LineMoved.same {s u : State} {i : LineNo} (hl : ∀ j, u.line j = s.line j) (hm : u.engine.mode = s.engine.mode)
    (hc : u.commit = s.commit) (hu : ∀ q, u.urgent q = s.urgent q) : LineMoved s u i (s.line i) false := by
  refine ⟨fun j => ?_, hm, hc, hu⟩
  rw [hl]
  split
  · rename_i h
    rw [h]
  · rfl

theorem urgent_beginTake (p : Port) (e : Entry) (d : Decoded) (s : State) (q : Port) :
    (beginTake p e d s).urgent q = s.urgent q := by
  cases q <;> simp [State.urgent]

section
variable (s : State) (p : Port) (e : Entry) (d : Decoded)

theorem takeLeaves_issue {x : Transaction} (hx : x.origin = some { port := p, tag := e.tag }) :
    TakeLeaves s (issue p e x (beginTake p e d s)) p e d fun x => x :=
  takeLeaves_of_issue releases_id hx (intakesAfter_issue releases_id fun q => by simp) (by simp)
    (by constructor <;> simp)

theorem takeLeaves_answer (status : Status) (data : Data) :
    TakeLeaves s (answerEntry p e status data (beginTake p e d s)) p e d fun x => x :=
  takeLeaves_of_answer releases_id (status := status) (data := data) (intakesAfter_answer releases_id fun q => by simp)
    (by simp) (by constructor <;> simp)

theorem takeDone_issue (i : LineNo) {x : Transaction} (hx : x.origin = some { port := p, tag := e.tag }) :
    TakeDone s p e d (issue p e x (beginTake p e d s)) i := by
  refine ⟨_, _, _, .keeps i, takeLeaves_issue s p e d hx, .same ?_ ?_ ?_ ?_⟩ <;> simp [urgent_beginTake]

theorem takeDone_answer (i : LineNo) (status : Status) (data : Data) :
    TakeDone s p e d (answerEntry p e status data (beginTake p e d s)) i := by
  refine ⟨_, _, _, .keeps i, takeLeaves_answer s p e d status data, .same ?_ ?_ ?_ ?_⟩ <;> simp [urgent_beginTake]

theorem takeDone_park {i : LineNo} {op : ParkedOp} (hd : d = .operation i op.lineOp) (hb : (s.line i).Blocks op) :
    TakeDone s p e d (park p e (deadlineIfParked s p e d) (beginTake p e d s)) i := by
  refine ⟨_, _, _, .keeps i, takeLeaves_park hd hb, .same ?_ ?_ ?_ ?_⟩ <;> simp [urgent_beginTake]

variable {s p e d}

theorem TakeLeaves.congr {u v : State} {other : Entry → Entry} (h : TakeLeaves s u p e d other)
    (hi : ∀ q, v.intake q = u.intake q) (hm : v.memQueue = u.memQueue) (hs : SameOutside u v) :
    TakeLeaves s v p e d other := by
  obtain ⟨hr, ⟨own, due, issued, hf, hi', hm'⟩, hs'⟩ := h
  exact ⟨hr, ⟨own, due, issued, hf, fun q => (hi q).trans (hi' q), hm.trans hm'⟩, hs'.trans hs⟩

theorem TakeLeaves.hand {u : State} {other : Entry → Entry} (h : TakeLeaves s u p e d other) (source : Source)
    (x : Incident) : TakeLeaves s (hand source x u) p e d other :=
  h.congr (fun q => hand_intake u source x q) rfl ⟨rfl, rfl, rfl, rfl⟩

theorem TakeLeaves.setLine {u : State} {other : Entry → Entry} (h : TakeLeaves s u p e d other) (i : LineNo)
    (l : Line) : TakeLeaves s (u.setLine i l) p e d other :=
  h.congr (fun q => State.setLine_intake u i l q) rfl ⟨rfl, rfl, rfl, rfl⟩

theorem TakeDone.hand {u : State} {i : LineNo} (h : TakeDone s p e d u i) (x : Incident) :
    TakeDone s p e d (hand .lineEngine x u) i := by
  obtain ⟨l, other, b, hmove, hleaves, ⟨hl, hmode, hc, hu⟩⟩ := h
  refine ⟨l, other, b, hmove, hleaves.hand _ x, ⟨fun j => ?_, hmode, hc, ?_⟩⟩
  · rw [hand_line, hl]
  · cases b with
    | true => exact hu
    | false => exact fun q => (hand_urgent u .lineEngine x q).trans (hu q)

theorem takeDone_accessReference (i : LineNo) (k : Nat) (purpose : Purpose) :
    TakeDone s p e d (accessReference p e i k purpose (beginTake p e d s)) i := by
  obtain ⟨-, h⟩ | ⟨-, h⟩ := accessReference_cases p e i k purpose (beginTake p e d s) <;> rw [h]
  · exact takeDone_issue s p e d i rfl
  · exact (takeDone_answer s p e d i _ _).hand _

theorem takeDone_accessWalk {i : LineNo} {op : LineOp} (hd : d = .operation i op)
    (hop : op = .walkRead ∨ op = .walkPeek ∨ op = .walkAmend) (purpose : Purpose) :
    TakeDone s p e d (accessWalk p e i purpose (beginTake p e d s)) i := by
  have moved : ∀ u : State, (∀ j, u.line j = s.line j) → u.engine = (beginTake p e d s).engine → u.commit = s.commit →
      LineMoved s (u.setLine i ((s.line i).advanceWalk p)) i ((s.line i).advanceWalk p) false := by
    intro u hl he hc
    refine ⟨fun j => by rw [State.line_setLine, hl], ?_, hc, fun q => ?_⟩
    · show u.engine.mode = _
      rw [he, beginTake_engine]
    · cases q <;> simp [State.urgent, State.setLine, he]
  refine ⟨_, _, _, .walks i op hd hop, ?_⟩
  simp only [accessWalk, beginTake_line]
  obtain ⟨-, h⟩ | ⟨-, h⟩ := accessReference_cases p e i ((s.line i).walk p) purpose (beginTake p e d s) <;> rw [h]
  · exact ⟨(takeLeaves_issue s p e d rfl).setLine _ _, moved _ (by simp) (by simp) (by simp)⟩
  · exact ⟨((takeLeaves_answer s p e d _ _).hand _ _).setLine _ _, moved _ (by simp) (by simp) (by simp)⟩

theorem takeDone_delayPushed {i : LineNo} (hd : d = .operation i .push) (hq : (s.line i).active.isQueue = false) :
    TakeDone s p e d (delayPushed p e i (beginTake p e d s)) i := by
  refine ⟨_, _, _, .delayPushes i hd hq,
    takeLeaves_of_issue (x := lineTransaction p e i (s.line i) (s.line i).head .push) releases_id rfl
      (delayPushed_intakes s p e i d) (by simp [delayPushed]) ?_,
    fun j => ?_, ?_, ?_, fun q => ?_⟩
  · constructor <;> simp [delayPushed]
  · simp [delayPushed, State.line_setLine]
  · simp [delayPushed_engine]
  · simp [delayPushed]
  · cases q <;> simp [State.urgent, delayPushed_engine]

theorem takeDone_enqueued {i : LineNo} (hd : d = .operation i .push) (hq : (s.line i).active.isQueue = true)
    (hf : (s.line i).fill < (s.line i).L) : TakeDone s p e d (enqueued p e i (beginTake p e d s)) i := by
  refine ⟨_, _, _, .enqueues i hd hq hf,
    takeLeaves_of_issue (x := lineTransaction p e i (s.line i) (s.line i).head .push)
      (releases_releasedFrom i .pop) rfl (enqueued_intakes s p e i d) (by simp [enqueued]) ?_,
    fun j => ?_, ?_, ?_, ?_⟩
  · constructor <;> simp [enqueued]
  · simp [enqueued, State.line_setLine]
  · simp [enqueued_engine]
  · simp [enqueued]
  · constructor <;> simp [enqueued_engine]

theorem takeDone_displaced {i : LineNo} (hd : d = .operation i .push) (hq : (s.line i).active.isQueue = true)
    (hf : (s.line i).L ≤ (s.line i).fill) : TakeDone s p e d (displaced p e i (beginTake p e d s)) i := by
  refine ⟨_, _, _, .displaces i hd hq hf,
    takeLeaves_of_issue (x := lineTransaction p e i (s.line i) (s.line i).head .push)
      (releases_releasedFrom i .pop) rfl (displaced_intakes s p e i d) (by simp [displaced]) ?_,
    fun j => ?_, ?_, ?_, fun q => ?_⟩
  · constructor <;> simp [displaced]
  · simp [displaced, State.line_setLine]
  · simp [displaced_engine]
  · simp [displaced]
  · cases q <;> simp [State.urgent, displaced_engine]

theorem takeDone_dequeue {i : LineNo} (hd : d = .operation i .pop) (hf : 0 < (s.line i).fill) :
    TakeDone s p e d (dequeue p e i (beginTake p e d s)) i := by
  refine ⟨_, _, _, .dequeues i hd hf,
    takeLeaves_of_issue (x := lineTransaction p e i (s.line i) (s.line i).tail .pop)
      (releases_releasedFrom i .push) rfl (dequeue_intakes s p e i d) (by simp [dequeue]) ?_,
    fun j => ?_, ?_, ?_, ?_⟩
  · constructor <;> simp [dequeue]
  · simp [dequeue, State.line_setLine]
  · simp [dequeue_engine]
  · simp [dequeue]
  · constructor <;> simp [dequeue_engine]

theorem takeDone_discardedFrom {i : LineNo} {n : Nat} (hd : d = .operation i .discard)
    (hm : 0 < min n (s.line i).fill) :
    TakeDone s p e d (answerEntry p e .okay 0 (discardedFrom i n (beginTake p e d s))) i := by
  have releases := releases_releasedFrom i .push
  refine ⟨_, _, _, .discards i n hd hm,
    takeLeaves_of_answer (other := Entry.releasedFrom i .push) releases
      (intakesAfter_answer releases fun q => by simp [discardedFrom, intake_releaseParked])
      (by simp [discardedFrom]) ?_,
    fun j => ?_, ?_, ?_, ?_⟩
  · constructor <;> simp [discardedFrom]
  · simp [discardedFrom, State.line_setLine]
  · simp [discardedFrom, recomputeUrgency, State.setLine]
  · simp [discardedFrom]
  · constructor <;> simp [discardedFrom, recomputeUrgency]

/-! ### Every take -/

/-- A take leaves `u`, and then, where its push wrapped a line with a pending WRAP commit, deals with that commit. -/
def TakeEnds (s : State) (p : Port) (e : Entry) (d : Decoded) (t : State) : Prop :=
  ∃ u i, TakeDone s p e d u i ∧ (t = u ∨ (u.pendingOf i = some .wrap ∧ t = dueCommit .lineEngine i u))

theorem TakeDone.ends {u : State} {i : LineNo} (h : TakeDone s p e d u i) : TakeEnds s p e d u := ⟨u, i, h, .inl rfl⟩

theorem TakeDone.reported {u : State} {i : LineNo} (h : TakeDone s p e d u i) (wrapped : Bool) :
    TakeEnds s p e d (reportIfWrapped i wrapped u) := by
  refine ⟨u, i, h, ?_⟩
  by_cases hw : wrapped = true ∧ u.pendingOf i = some .wrap
  · obtain ⟨rfl, hp⟩ := hw
    exact .inr ⟨hp, reportIfWrapped_due hp⟩
  · exact .inl (reportIfWrapped_none hw)

theorem overrun_ends {i : LineNo} (hd : d = .operation i .push) (hq : (s.line i).active.isQueue = true)
    (hf : (s.line i).L ≤ (s.line i).fill) :
    TakeEnds s p e d (overrun (deadlineIfParked s p e d) p e i (beginTake p e d s)) := by
  unfold overrun
  split
  · exact ((takeDone_answer s p e d i _ _).hand _).ends
  · exact (takeDone_displaced hd hq hf).reported _
  · rename_i hpolicy
    rw [beginTake_line] at hpolicy
    exact (takeDone_park s p e d (op := .push) hd ⟨hq, hf, hpolicy⟩).ends
  · exact ((takeDone_answer s p e d i _ _).hand _).ends

theorem push_ends {i : LineNo} (hd : d = .operation i .push) :
    TakeEnds s p e d (performOp (deadlineIfParked s p e d) p e i .push (beginTake p e d s)) := by
  simp only [performOp, queuePush, beginTake_line]
  split
  · rename_i hq
    split
    · rename_i hf
      exact (takeDone_enqueued hd hq hf).reported _
    · rename_i hf
      exact overrun_ends hd hq (Nat.le_of_not_lt hf)
  · rename_i hq
    exact (takeDone_delayPushed hd (Bool.eq_false_iff.mpr hq)).reported _

theorem pop_ends {i : LineNo} (hd : d = .operation i .pop) :
    TakeEnds s p e d (performOp (deadlineIfParked s p e d) p e i .pop (beginTake p e d s)) := by
  simp only [performOp, queuePop, beginTake_line]
  split
  · rename_i hf
    exact (takeDone_dequeue hd hf).ends
  · rename_i hf
    split
    · rename_i hpolicy
      exact (takeDone_park s p e d (op := .pop) hd ⟨Nat.eq_zero_of_not_pos hf, hpolicy⟩).ends
    · rw [underrun, answerUnderrun_eq]
      exact ((takeDone_answer s p e d i _ _).hand _).ends

theorem discard_ends {i : LineNo} (hd : d = .operation i .discard) :
    TakeEnds s p e d (queueDiscard p e i (beginTake p e d s)) := by
  simp only [queueDiscard, beginTake_line]
  split
  · exact (takeDone_answer s p e d i _ _).ends
  · rename_i hm
    rw [← beginTake_line p e d s i]
    exact (takeDone_discardedFrom hd (Nat.pos_of_ne_zero hm)).ends

/-- Every take, said once: whatever decoding found, the taken entry meets its fate and one line moves. -/
theorem takeEntry_ends (s : State) (p : Port) (e : Entry) : TakeEnds s p e (decodeTaken s e) (takeEntry p e s) := by
  unfold takeEntry
  generalize hd : decodeTaken s e = d
  cases d with
  | plain => exact (takeDone_issue s p e _ 0 rfl).ends
  | refused how charged => exact ((takeDone_answer s p e _ 0 _ _).hand _).ends
  | operation i op =>
    cases op with
    | push => exact push_ends rfl
    | pop => exact pop_ends rfl
    | newestRead | tapRead k | tapPeek k | tapAmend k => exact (takeDone_accessReference i _ _).ends
    | walkRead | walkPeek | walkAmend => exact (takeDone_accessWalk rfl (by simp) _).ends
    | levelRead | generationRead => exact (takeDone_answer s p e _ i _ _).ends
    | discard => exact discard_ends rfl

end

end Sys2Proof.Machine
end

section
/-! ## Every command keeps the open lists and the memory queue in order -/

namespace Sys2Proof.Machine

/-! ### The take -/

theorem nextTake_offers {s : State} {p : Port} {e : Entry} (h : nextTake s = some (p, e)) :
    (s.intake p).offer = some e := by
  unfold nextTake at h
  split at h
  · cases h
  · rename_i ha _
    cases h
    exact ha
  · rename_i _ hb
    cases h
    exact hb
  · rename_i ha hb
    split at h
    · cases h
      exact ha
    · cases h
      exact hb

section
variable {s : State} {p : Port} {e : Entry} {d : Decoded} {own : Entry → Entry} {deadline : Option (BitVec 32)}
  {issued : List Transaction} (h : TakeFate s p e d own deadline issued)
include h

theorem TakeFate.tag (x : Entry) : (own x).tag = x.tag := by
  cases h <;> rfl

theorem TakeFate.rank (x : Entry) : EntryState.rank (own x).state ≤ 1 := by
  cases h <;> simp [Entry.nowIs, Entry.nowReady, EntryState.rank]

theorem TakeFate.fieldsOk {x : Entry} (hx : Entry.fieldsOk x) (hr : x.state ≠ .ready) : Entry.fieldsOk (own x) := by
  have none : x.answer.isSome ≠ true := fun ha => hr (hx.2.mp ha)
  cases h <;> simp_all [Entry.fieldsOk, Entry.nowIs, Entry.nowReady]

theorem TakeFate.issued_length : issued.length ≤ 1 := by
  cases h <;> simp

theorem TakeFate.issued_tags (q : Port) :
    issued.filterMap (Transaction.tagOn q) = if q = p ∧ (own e).state = .issued then [e.tag] else [] := by
  cases h with
  | issues x origin =>
    by_cases hq : q = p
    · subst hq
      simp [Transaction.tagOn, origin, Entry.nowIs]
    · have hp : p ≠ q := fun hp => hq hp.symm
      simp [Transaction.tagOn, origin, hq, hp]
  | answers status data => simp [Entry.nowReady]
  | parks i op decoded blocks => simp [Entry.nowIs]

/-- After a take the port has a deadline exactly where the taken entry parks. -/
theorem TakeFate.deadline_iff {before after : List Entry} (hok : (s.intake p).Ok)
    (ho : (s.intake p).OffersAt e before after) : deadline.isSome = true ↔ Entry.isHeld (own e) = true := by
  obtain ⟨-, -, -, hd⟩ := hok
  have absent : (if e.state = .released then none else (s.intake p).deadline) = none := by
    split
    · rfl
    · rename_i hr
      have hw := ho.state.resolve_left hr
      refine Option.not_isSome_iff_eq_none.mp fun hs => ?_
      obtain ⟨x, hx, hheld⟩ := hd.mp hs
      rw [ho.split] at hx
      rcases List.mem_append.mp hx with hx | hx
      · exact Bool.false_ne_true ((ho.not_held (.inl hx)).symm.trans hheld)
      · rcases List.mem_cons.mp hx with rfl | hx
        · exact isHeld_not_waiting hheld hw
        · exact Bool.false_ne_true ((ho.not_held (.inr hx)).symm.trans hheld)
  cases h with
  | issues x origin => simp [absent, Entry.nowIs, Entry.isHeld]
  | answers status data => simp [absent, Entry.nowReady, Entry.isHeld]
  | parks i op decoded blocks =>
    have held : Entry.isHeld (Entry.nowIs d .parked e) = true := rfl
    simp only [held, iff_true]
    unfold deadlineIfParked
    rw [decoded]
    obtain hs | hs := ho.state
    · have hin : e ∈ (s.intake p).openList := by simp [ho.split]
      simpa [hs] using hd.mpr ⟨e, hin, by simp [Entry.isHeld, hs]⟩
    · simp [hs]

end

theorem TakeLeaves.queuesOk {s u : State} {p : Port} {e : Entry} {d : Decoded} {other : Entry → Entry}
    (h : TakeLeaves s u p e d other) (hq : s.QueuesOk) (ht : s.Takes p e d) : u.QueuesOk := by
  obtain ⟨hother, ⟨own, deadline, issued, hfate, hintake, hmem⟩, houtside⟩ := h
  obtain ⟨hr, hplace, hnext, -⟩ := ht
  obtain ⟨hok, ⟨hlen, htags⟩, hreset⟩ := hq
  obtain ⟨before, after, ho⟩ := (hok p).offersAt (nextTake_offers hnext)
  have listP : (u.intake p).openList = before ++ own e :: after := by
    rw [hintake, ← ho.map_eq hother]
    simp
  have ready : e.state ≠ .ready := by
    obtain hs | hs := ho.state <;> simp [hs]
  have fields : Entry.fieldsOk e := (hok p).fieldsOk (by simp [ho.split])
  have okOf : ∀ q, (u.intake q).Ok ∧ (u.intake q).issuedTags
      = (s.intake q).issuedTags ++ issued.filterMap (Transaction.tagOn q) := by
    intro q
    rw [hfate.issued_tags]
    by_cases hq : q = p
    · subst hq
      refine ⟨(hok q).afterTake ho listP (by rw [hintake]) (hfate.tag e) (hfate.rank e)
        (hfate.fieldsOk fields ready) ?_, ?_⟩
      · rw [← hfate.deadline_iff (hok q) ho, hintake]
        simp
      · rw [ho.issuedTags listP, hfate.tag]
        simp
    · have list : (u.intake q).openList = (s.intake q).openList.map other := by
        rw [hintake]
        simp [hq]
      refine ⟨(hok q).release hother list (by rw [hintake]) (by rw [hintake]; simp [hq]), ?_⟩
      rw [Intake.issuedTags_map list hother.tag fun x _ => hother.issued_iff x]
      simp [hq]
  refine ⟨fun q => (okOf q).1, ⟨?_, fun q => ?_⟩, fun hin => ?_⟩
  · have h1 := hfate.issued_length
    rw [hmem, List.length_append]
    omega
  · rw [hmem, List.filterMap_append, htags, (okOf q).2]
  · rw [houtside.inReset, hr] at hin
    cases hin

/-! ### Commits -/

/-- What the intakes, the memory queue and the blocks beyond the line engine and the commit unit see of a commit:
entries released, or held entries ended. -/
structure CommitLeaves (s t : State) : Prop where
  intakes : (∃ f, Releases f ∧ ∀ q, t.intake q = { s.intake q with openList := (s.intake q).openList.map f })
    ∨ ∃ which, ∀ q, t.intake q = endHeld which (s.intake q)
  memQueue : t.memQueue = s.memQueue
  outside : SameOutside s t

theorem CommitLeaves.queuesOk {s t : State} (h : CommitLeaves s t) (hq : s.QueuesOk) : t.QueuesOk := by
  obtain ⟨⟨f, hf, hi⟩ | ⟨which, hi⟩, hm, hs⟩ := h
  · exact hq.release hf hi hm hs.inReset
  · exact hq.endHeld hi hm hs.inReset

theorem releases_byPolicy (i : LineNo) (d : Image) :
    Releases fun x =>
      if x.state = .parked
          ∧ ((Entry.parkedOp x = some (i, .pop) ∧ d.underrunPolicy ≠ 2)
            ∨ (Entry.parkedOp x = some (i, .push) ∧ d.overflowPolicy ≠ 2)) then
        { x with state := .released }
      else x := by
  intro x
  dsimp only
  split
  · rename_i h
    exact .inr ⟨h.1, rfl⟩
  · exact .inl rfl

section
variable {source : Source} {i : LineNo} {s : State}

theorem applyCommit_soft_eq (h : commitKind (s.line i) (s.stagedOf i) = .soft) :
    applyCommit source i s = recomputeUrgency (releaseByPolicy i (s.stagedOf i) ((s.setPending i none).setLine i
      { (s.line i).committed .appliedSoft with active := s.stagedOf i })) := by
  simp only [applyCommit, State.setPending_line, State.setPending_stagedOf, h, applySoft]

theorem applyCommit_hard_eq (h : commitKind (s.line i) (s.stagedOf i) = .hard) :
    applyCommit source i s = recomputeUrgency (abandon source .hardCommit (Entry.heldOn i)
      ((s.setPending i none).setLine i
        { ((s.line i).committed .appliedHard).emptied with active := s.stagedOf i, state := .live })) := by
  simp only [applyCommit, State.setPending_line, State.setPending_stagedOf, h, applyHard]

theorem applyCommit_retiring_eq (h : commitKind (s.line i) (s.stagedOf i) = .retiring) :
    applyCommit source i s = recomputeUrgency (abandon source .retire (Entry.heldOn i)
      ((s.setPending i none).setLine i ((s.line i).committed .appliedHard).retired)) := by
  simp only [applyCommit, State.setPending_line, State.setPending_stagedOf, h, applyRetiring]

theorem abandon_leaves (cause : Cause) (which : Entry → Bool) {u : State} (hi : ∀ q, u.intake q = s.intake q)
    (hm : u.memQueue = s.memQueue) (hs : SameOutside s u) :
    CommitLeaves s (recomputeUrgency (abandon source cause which u)) := by
  refine ⟨.inr ⟨which, fun q => ?_⟩, hm, hs.trans ⟨rfl, rfl, rfl, rfl⟩⟩
  rw [recomputeUrgency_intake, intake_abandon, hi]

theorem applyCommit_leaves (source : Source) (i : LineNo) (s : State) : CommitLeaves s (applyCommit source i s) := by
  cases h : commitKind (s.line i) (s.stagedOf i) with
  | soft =>
    rw [applyCommit_soft_eq h, releaseByPolicy_eq]
    refine ⟨.inl ⟨_, releases_byPolicy i (s.stagedOf i), fun q => ?_⟩, rfl, ⟨rfl, rfl, rfl, rfl⟩⟩
    have hi := intake_releaseByPolicy ((s.setPending i none).setLine i
      { (s.line i).committed .appliedSoft with active := s.stagedOf i }) i (s.stagedOf i) q
    rw [State.setLine_intake, State.setPending_intake] at hi
    rw [← hi]
    cases q <;> rfl
  | hard =>
    rw [applyCommit_hard_eq h]
    exact abandon_leaves _ _ (fun q => by simp) rfl ⟨rfl, rfl, rfl, rfl⟩
  | retiring =>
    rw [applyCommit_retiring_eq h]
    exact abandon_leaves _ _ (fun q => by simp) rfl ⟨rfl, rfl, rfl, rfl⟩

theorem leaves_of_same {s t : State} (hi : ∀ q, t.intake q = s.intake q) (hm : t.memQueue = s.memQueue)
    (hs : SameOutside s t) : CommitLeaves s t :=
  ⟨.inl ⟨fun x => x, releases_id, fun q => by simp [hi]⟩, hm, hs⟩

theorem refuseCommit_leaves (source : Source) (i : LineNo) (reason : ClashReason) (other : LineNo) (s : State) :
    CommitLeaves s (refuseCommit source i reason other s) :=
  leaves_of_same (fun q => by simp [refuseCommit]) rfl ⟨rfl, rfl, rfl, rfl⟩

theorem dueCommit_leaves (source : Source) (i : LineNo) (s : State) : CommitLeaves s (dueCommit source i s) := by
  unfold dueCommit
  split
  · exact refuseCommit_leaves ..
  · exact applyCommit_leaves ..

end

/-- A mark keeps what the count and every due commit keep. -/
theorem markEvent_keeps {P : State → Prop}
    (hcount : ∀ s : State, P s → P { s with commit := { s.commit with markCount := s.commit.markCount + 1 } })
    (hdue : ∀ (i : LineNo) (s : State), s.pendingOf i = some .mark → P s → P (dueCommit .commitUnit i s)) {s : State}
    (h : P s) : P (markEvent s) := by
  have fold : ∀ (l : List LineNo) (s : State), P s → P (l.foldl markLine s) := by
    intro l
    induction l with
    | nil => exact fun _ h => h
    | cons i more ih =>
      intro s h
      refine ih _ ?_
      unfold markLine
      split
      · rename_i hp
        exact hdue i s hp h
      · exact h
  exact fold _ _ (hcount s h)

theorem markEvent_queuesOk {s : State} (h : s.QueuesOk) : (markEvent s).QueuesOk :=
  markEvent_keeps (fun _ h => h.congr (fun q => by cases q <;> rfl) rfl rfl)
    (fun i s _ h => (dueCommit_leaves .commitUnit i s).queuesOk h) h

theorem execTake_queuesOk {s t : State} (h : s.QueuesOk) (hs : execTake s = .next t) : t.QueuesOk := by
  obtain hn | ⟨p, e, ht, hn⟩ := execTake_cases s <;> rw [hn] at hs <;> cases hs
  · exact h
  · obtain ⟨u, i, ⟨l, other, b, -, hleaves, -⟩, htu | ⟨-, htu⟩⟩ := takeEntry_ends s p e <;> rw [htu]
    · exact hleaves.queuesOk h ht
    · exact (dueCommit_leaves .lineEngine i u).queuesOk (hleaves.queuesOk h ht)

end Sys2Proof.Machine
end

section
namespace Sys2Proof.Machine

/-! ### The memory port -/

theorem presentOldest_length (queue : List Transaction) : (presentOldest queue).length = queue.length := by
  induction queue with
  | nil => rfl
  | cons t more ih =>
    unfold presentOldest
    split <;> simp [ih]

theorem presentOldest_tags (p : Port) (queue : List Transaction) :
    (presentOldest queue).filterMap (Transaction.tagOn p) = queue.filterMap (Transaction.tagOn p) := by
  induction queue with
  | nil => rfl
  | cons t more ih =>
    unfold presentOldest
    split
    · simp only [List.filterMap_cons, ih]
    · rfl

/-- The tags of an ordered list tell its entries apart. -/
theorem Intake.Ok.tag_lt {it : Intake} (h : it.Ok) {before after : List Entry} {e : Entry}
    (hl : it.openList = before ++ e :: after) :
    (∀ x ∈ before, x.tag < e.tag) ∧ ∀ x ∈ after, e.tag < x.tag := by
  obtain ⟨-, hpair, -⟩ := h
  rw [hl] at hpair
  obtain ⟨-, hafter, hbefore⟩ := List.pairwise_append.mp hpair
  exact ⟨fun x hx => (hbefore x hx e (List.mem_cons_self ..)).2.2,
    fun x hx => ((List.pairwise_cons.mp hafter).1 x hx).2.2⟩

/-- The first ISSUED tag is that of an entry before which none is ISSUED. -/
theorem Intake.issuedTags_cons {it : Intake} {tag : Nat} {rest : List Nat} (h : it.issuedTags = tag :: rest) :
    ∃ before e after, it.openList = before ++ e :: after ∧ e.state = .issued ∧ e.tag = tag
      ∧ (before.filter fun x => x.state == .issued) = []
      ∧ rest = (after.filter fun x => x.state == .issued).map fun x => x.tag := by
  obtain ⟨e, more, hf, rfl, rfl⟩ := List.map_eq_cons_iff.mp h
  obtain ⟨before, after, hl, hb, he, ha⟩ := List.filter_eq_cons_iff.mp hf
  exact ⟨before, e, after, hl, by simpa using he, rfl, List.filter_eq_nil_iff.mpr hb, by rw [ha]⟩

/-- The answer of the entry that issued the oldest transaction of its port. -/
theorem Intake.Ok.answerIssued {it : Intake} (h : it.Ok) {tag : Nat} {rest : List Nat}
    (ht : it.issuedTags = tag :: rest) (status : Status) (data : Data) :
    let it' := { it with openList := updateEntries tag (Entry.answered status data) it.openList }
    it'.Ok ∧ it'.issuedTags = rest := by
  intro it'
  obtain ⟨before, e, after, hl, he, rfl, hb, hrest⟩ := Intake.issuedTags_cons ht
  obtain ⟨hlt, hgt⟩ := h.tag_lt hl
  have only : ∀ x ∈ it.openList, x.tag = e.tag → x = e := by
    intro x hx htag
    rw [hl] at hx
    rcases List.mem_append.mp hx with hx | hx
    · exact absurd htag (hlt x hx).ne
    · rcases List.mem_cons.mp hx with rfl | hx
      · rfl
      · exact absurd htag (hgt x hx).ne'
  have stays : ∀ l : List Entry, (∀ x ∈ l, x.tag ≠ e.tag) → updateEntries e.tag (Entry.answered status data) l = l :=
    fun l hne => (List.map_congr_left fun x hx => if_neg (hne x hx)).trans (List.map_id' l)
  have list : it'.openList = before ++ Entry.answered status data e :: after := by
    have split : updateEntries e.tag (Entry.answered status data) it.openList
        = updateEntries e.tag (Entry.answered status data) before
          ++ Entry.answered status data e :: updateEntries e.tag (Entry.answered status data) after := by
      simp [updateEntries, hl]
    rw [stays before fun x hx => (hlt x hx).ne, stays after fun x hx => (hgt x hx).ne'] at split
    exact split
  refine ⟨h.map (f := fun x => if x.tag = e.tag then Entry.answered status data x else x) rfl rfl (fun x hx => ?_)
    (fun x => ?_) (fun x hx => ?_) ?_, ?_⟩
  · by_cases htag : x.tag = e.tag
    · rw [if_pos htag, only x hx htag, he]
      exact .inl rfl
    · rw [if_neg htag]
      exact .inl rfl
  · split <;> rfl
  · have fields := h.fieldsOk hx
    by_cases htag : x.tag = e.tag
    · rw [if_pos htag]
      exact answered_fieldsOk fields (by rw [only x hx htag, he]; decide)
    · rwa [if_neg htag]
  · show it.deadline.isSome = true ↔ _
    rw [h.deadline_iff]
    refine exists_congr fun x => and_congr_right fun hx => ?_
    by_cases htag : x.tag = e.tag
    · rw [if_pos htag, only x hx htag]
      simp [Entry.isHeld, he, Entry.answered]
    · rw [if_neg htag]
  · unfold Intake.issuedTags
    rw [list, hrest]
    simp [hb, Entry.answered]

theorem setSuspect_cases (line : Option LineNo) (s : State) :
    setSuspect line s = s
      ∨ ∃ i, (s.line i).isLive = true ∧ setSuspect line s = s.setLine i { s.line i with suspect := true } := by
  unfold setSuspect
  split
  · exact .inl rfl
  · rename_i i
    split
    · rename_i hl
      exact .inr ⟨i, hl, rfl⟩
    · exact .inl rfl

theorem setSuspect_intake (line : Option LineNo) (s : State) (q : Port) :
    (setSuspect line s).intake q = s.intake q := by
  obtain h | ⟨i, -, h⟩ := setSuspect_cases line s <;> rw [h]
  exact State.setLine_intake ..

theorem setSuspect_memQueue (line : Option LineNo) (s : State) : (setSuspect line s).memQueue = s.memQueue := by
  obtain h | ⟨i, -, h⟩ := setSuspect_cases line s <;> rw [h]
  rfl

theorem setSuspect_outside (line : Option LineNo) (s : State) : SameOutside s (setSuspect line s) := by
  obtain h | ⟨i, -, h⟩ := setSuspect_cases line s <;> rw [h] <;> exact ⟨rfl, rfl, rfl, rfl⟩

theorem State.QueuesOk.answerOrigin {s : State} {t : Transaction} {more : List Transaction} {o : Origin}
    (h : s.QueuesOk) (hm : s.memQueue = t :: more) (ho : t.origin = some o) (status : Status) (data : Data) :
    (answerOrigin t o status data { s with memQueue := more }).QueuesOk := by
  obtain ⟨hok, ⟨hlen, htags⟩, hreset⟩ := h
  have tagsP : (s.intake o.port).issuedTags = o.tag :: more.filterMap (Transaction.tagOn o.port) := by
    rw [← htags, hm]
    simp [Transaction.tagOn, ho]
  have tagsOther : ∀ q, q ≠ o.port → (s.intake q).issuedTags = more.filterMap (Transaction.tagOn q) := by
    intro q hq
    have hq' : o.port ≠ q := fun h => hq h.symm
    rw [← htags, hm]
    simp [Transaction.tagOn, ho, hq']
  obtain ⟨okP, restP⟩ := (hok o.port).answerIssued tagsP status data
  obtain ⟨before, e, after, hl, -, htag, -, -⟩ := Intake.issuedTags_cons tagsP
  have answered : ∀ x : Entry, x.tag = o.tag →
      (answerEntry o.port x status data { s with memQueue := more }).QueuesOk := by
    intro x hx
    have intakes : ∀ q, (answerEntry o.port x status data { s with memQueue := more }).intake q =
        if q = o.port then
          { s.intake o.port with
            openList := updateEntries o.tag (Entry.answered status data) (s.intake o.port).openList }
        else s.intake q := by
      intro q
      rw [answerEntry, intake_updateEntry, hx]
      cases q <;> cases o.port <;> rfl
    refine ⟨fun q => ?_, ⟨?_, fun q => ?_⟩, fun hin => ?_⟩
    · rw [intakes]
      split
      · exact okP
      · exact hok q
    · rw [hm] at hlen
      simp only [answerEntry_memQueue]
      exact Nat.le_of_succ_le hlen
    · rw [intakes, answerEntry_memQueue]
      split
      · rename_i hq
        rw [hq, restP]
      · rename_i hq
        exact (tagsOther q hq).symm
    · have hnil := hreset ((answerEntry_inReset { s with memQueue := more } _ _ _ _).symm.trans hin) o.port
      rw [hl] at hnil
      simp at hnil
  unfold Machine.answerOrigin
  have found : ∃ x, originEntry { s with memQueue := more } o = some x ∧ x.tag = o.tag := by
    have hs : (originEntry { s with memQueue := more } o).isSome = true := by
      refine List.find?_isSome.mpr ⟨e, ?_, by simp [htag]⟩
      show e ∈ (s.intake o.port).openList
      simp [hl]
    obtain ⟨x, hx⟩ := Option.isSome_iff_exists.mp hs
    exact ⟨x, hx, by simpa using List.find?_some hx⟩
  obtain ⟨x, hx, hxtag⟩ := found
  rw [hx]
  cases status with
  | okay => exact answered x hxtag
  | error =>
    show (setSuspect t.line (hand .memoryPort (memfaultIncident t o.port x)
      (answerEntry o.port x .error data { s with memQueue := more }))).QueuesOk
    exact (answered x hxtag).congr (fun q => by rw [setSuspect_intake, hand_intake])
      (by rw [setSuspect_memQueue, hand_memQueue]) (by rw [(setSuspect_outside _ _).inReset, hand_inReset])


theorem execMemoryAnswer_queuesOk {status : Status} {data : Data} {s t : State} (h : s.QueuesOk)
    (hs : execMemoryAnswer status data s = .next t) : t.QueuesOk := by
  unfold execMemoryAnswer at hs
  cases hs
  split
  · exact h
  · rename_i x more hm
    dsimp only
    split
    · rename_i ho
      obtain ⟨hok, ⟨hlen, htags⟩, hreset⟩ := h
      refine ⟨fun q => ?_, ⟨?_, fun q => ?_⟩, hreset⟩
      · have hq := hok q
        cases q <;> exact hq
      · rw [hm] at hlen
        exact Nat.le_of_succ_le hlen
      · have hq := htags q
        rw [hm] at hq
        simp only [List.filterMap_cons, Transaction.tagOn, ho] at hq
        cases q <;> exact hq
    · rename_i o ho
      exact h.answerOrigin hm ho status data

/-! ### The ports -/

/-- One intake in a new order, and nothing else the queues depend on. -/
theorem State.QueuesOk.setIntake {s : State} {p : Port} {it : Intake} (h : s.QueuesOk) (hok : it.Ok)
    (htags : it.issuedTags = (s.intake p).issuedTags) (hempty : s.inReset = true → it.openList = []) :
    (s.setIntake p it).QueuesOk := by
  obtain ⟨hits, ⟨hlen, hm⟩, hreset⟩ := h
  refine ⟨fun q => ?_, ⟨by simpa using hlen, fun q => ?_⟩, fun hin q => ?_⟩
  · rw [State.intake_setIntake]
    split
    · exact hok
    · exact hits q
  · rw [State.intake_setIntake, State.setIntake_memQueue, hm]
    split
    · rename_i hq
      rw [htags, hq]
    · rfl
  · rw [State.setIntake_inReset] at hin
    rw [State.intake_setIntake]
    split
    · exact hempty hin
    · exact hreset hin q

theorem Intake.Ok.accept {it : Intake} (h : it.Ok) (hroom : it.openList.length < Config.openPlaces) (access : Access)
    (addr : Addr) (size : Size) : (it.accept access addr size).Ok := by
  obtain ⟨-, hpair, hmem, hd⟩ := h
  refine ⟨by simpa [Intake.accept] using hroom, ?_, fun x hx => ?_, ?_⟩
  · refine List.pairwise_append.mpr ⟨hpair, List.pairwise_singleton _ _, fun x hx y hy => ?_⟩
    rw [List.mem_singleton.mp hy]
    refine ⟨?_, fun hc => absurd hc.2 (by simp [acceptedEntry, EntryState.rank]), (hmem x hx).1⟩
    show _ ≤ 2
    cases x.state <;> decide
  · rcases List.mem_append.mp hx with hx | hx
    · obtain ⟨hlt, hfields⟩ := hmem x hx
      exact ⟨Nat.lt_succ_of_lt hlt, hfields⟩
    · rw [List.mem_singleton.mp hx]
      exact ⟨Nat.lt_succ_self _, by simp [Entry.fieldsOk, acceptedEntry]⟩
  · show it.deadline.isSome = true ↔ _
    rw [hd]
    simp [Intake.accept, or_and_right, exists_or, acceptedEntry, Entry.isHeld]

theorem accept_issuedTags (it : Intake) (access : Access) (addr : Addr) (size : Size) :
    (it.accept access addr size).issuedTags = it.issuedTags := by
  simp [Intake.issuedTags, Intake.accept, acceptedEntry]

/-- What a delivery does: nothing, or the READY front leaves. -/
theorem deliver_cases (it : Intake) :
    it.deliver = it
      ∨ ∃ e more, it.openList = e :: more ∧ e.state = .ready ∧ it.deliver = { it with openList := more } := by
  unfold Intake.deliver
  split
  · rename_i e more hl
    split
    · rename_i hr
      exact .inr ⟨e, more, hl, hr, rfl⟩
    · exact .inl rfl
  · exact .inl rfl

theorem Intake.Ok.deliver {it : Intake} (h : it.Ok) : it.deliver.Ok ∧ it.deliver.issuedTags = it.issuedTags := by
  obtain hd | ⟨e, more, hl, hr, hd⟩ := deliver_cases it <;> rw [hd]
  · exact ⟨h, rfl⟩
  · obtain ⟨hlen, hpair, hmem, hheld⟩ := h
    rw [hl] at hlen hpair hmem hheld
    refine ⟨⟨Nat.le_of_succ_le hlen, (List.pairwise_cons.mp hpair).2, fun x hx => hmem x (List.mem_cons_of_mem _ hx),
      ?_⟩, ?_⟩
    · show it.deadline.isSome = true ↔ _
      rw [hheld]
      simp [Entry.isHeld, hr]
    · simp [Intake.issuedTags, hl, hr]

theorem deliver_openList_eq_nil {it : Intake} (h : it.openList = []) : it.deliver.openList = [] := by
  obtain hd | ⟨e, more, hl, -, -⟩ := deliver_cases it
  · rw [hd, h]
  · rw [h] at hl
    cases hl

/-- After every held entry has ended the deadline is absent. -/
theorem Intake.Ok.endAll_deadline {it : Intake} (h : it.Ok) : (Machine.endHeld (fun _ => true) it).deadline = none := by
  refine Option.not_isSome_iff_eq_none.mp fun hs => ?_
  obtain ⟨x, hx, hheld⟩ := (h.endHeld fun _ => true).deadline_iff.mp hs
  rw [endHeld_openList] at hx
  obtain ⟨y, -, rfl⟩ := List.mem_map.mp hx
  exact Bool.noConfusion ((endEntry_isHeld _ y).mp hheld).2

theorem intake_expire (p q : Port) (s : State) :
    (expire p s).intake q =
      if q = p then { endHeld (fun _ => true) (s.intake p) with deadline := none } else s.intake q := by
  cases p <;> cases q <;> rfl

theorem expire_outside (p : Port) (s : State) : (expire p s).memQueue = s.memQueue ∧ SameOutside s (expire p s) := by
  cases p <;> exact ⟨rfl, rfl, rfl, rfl, rfl⟩

theorem expire_queuesOk {p : Port} {s : State} (h : s.QueuesOk) : (expire p s).QueuesOk := by
  obtain ⟨hm, hs⟩ := expire_outside p s
  have ends : { endHeld (fun _ => true) (s.intake p) with deadline := none }
      = endHeld (fun _ => true) (s.intake p) := by
    rw [← (h.1 p).endAll_deadline]
  refine (h.setIntake (p := p) (it := endHeld (fun _ => true) (s.intake p)) ((h.1 p).endHeld _) (endHeld_issuedTags _ _)
    fun hin => endHeld_openList_eq_nil (h.2.2 hin p)).congr (fun q => ?_) ?_ ?_
  · rw [intake_expire, State.intake_setIntake, ends]
  · rw [hm, State.setIntake_memQueue]
  · rw [hs.inReset, State.setIntake_inReset]

end Sys2Proof.Machine
end

section
namespace Sys2Proof.Machine

/-! ### The link's commands -/

/-- Everything an ARM can do to the state (R120, R123, R124). -/
inductive ArmLeaves (i : LineNo) (s : State) : State → Prop
  | unchanged : ArmLeaves i s s
  | pends (t : Trigger) (image : imageFault (s.stagedOf i) = none)
    (allowed : (s.line i).isLive = true ∨ (t = .mark ∧ (s.stagedOf i).isNone = false)) :
    ArmLeaves i s (s.setPending i (some t))
  | refuses (reason : ClashReason) (other : LineNo) : ArmLeaves i s (setOutcome i (.refused reason other) s)
  | applies (image : imageFault (s.stagedOf i) = none) (fits : clashCheck s i (s.stagedOf i) = none) :
    ArmLeaves i s (applyCommit .commitUnit i s)

theorem okWith_ok {bytes : List Byte} (h : bytes.length ≤ 32) : (okWith bytes).Ok := ⟨h, fun hne => absurd rfl hne⟩

theorem statusOnly_ok (status : LinkStatus) : (statusOnly status).Ok := ⟨by simp [statusOnly], fun _ => .inl rfl⟩

theorem invalid_ok {bytes : List Byte} (h : bytes.length = 2) : Held.Ok { status := .invalid, bytes := bytes } :=
  ⟨by simp [h], fun _ => .inr ⟨rfl, h⟩⟩

theorem armAccepted_leaves {i : LineNo} {t : ArmTrigger} {s : State} (image : imageFault (s.stagedOf i) = none)
    (live : (s.line i).isLive = true ∨ (t ≠ .pend .wrap ∧ (s.stagedOf i).isNone = false)) :
    ArmLeaves i s (armAccepted i t s).1 ∧ (armAccepted i t s).2.Ok := by
  unfold armAccepted
  split
  · rename_i trigger
    refine ⟨.pends trigger image (live.imp_right fun h => ⟨?_, h.2⟩), okWith_ok (by simp)⟩
    cases trigger with
    | mark => rfl
    | wrap => exact absurd rfl h.1
  · split
    · exact ⟨.refuses _ _, invalid_ok rfl⟩
    · rename_i fits
      exact ⟨.applies image fits, okWith_ok (by simp)⟩

theorem armLine_leaves (i : LineNo) (args : List Byte) (s : State) :
    ArmLeaves i s (armLine i args s).1 ∧ (armLine i args s).2.Ok := by
  unfold armLine
  split
  · exact ⟨.unchanged, statusOnly_ok _⟩
  · split
    · exact ⟨.unchanged, statusOnly_ok _⟩
    · rename_i t _
      split
      · exact ⟨.unchanged, statusOnly_ok _⟩
      · rename_i hwrap
        split
        · exact ⟨.unchanged, statusOnly_ok _⟩
        · rename_i hnone
          split
          · rename_i fault _
            refine ⟨.unchanged, ?_⟩
            cases fault <;> exact invalid_ok rfl
          · rename_i image
            refine armAccepted_leaves image ?_
            cases hl : (s.line i).isLive with
            | true => exact .inl rfl
            | false =>
              simp only [hl, and_true, Bool.not_eq_true] at hwrap hnone
              exact .inr ⟨hwrap, hnone⟩

theorem clearPart_fst (args : List Byte) (s : State) :
    (clearPart args s).1 = recomputeUrgency { allLines.foldl clearLine s with
      portA := endHeld (fun _ => true) s.portA, portB := endHeld (fun _ => true) s.portB,
      incidents := s.incidents.cleared } := by
  have records : s.RecordsOnly (allLines.foldl clearLine s) := clearLine_empties.foldl_recordsOnly _ _
  unfold clearPart
  generalize allLines.foldl clearLine s = u at records ⊢
  show recomputeUrgency { u with
    portA := endHeld (fun _ => true) u.portA, portB := endHeld (fun _ => true) u.portB,
    incidents := u.incidents.cleared } = _
  rw [records]

theorem cancelPending_leaves (i : LineNo) (s : State) : CommitLeaves s (cancelPending i s) := by
  rw [cancelPending_recordsOnly i s]
  exact leaves_of_same (fun q => by cases q <;> rfl) rfl ⟨rfl, rfl, rfl, rfl⟩

/-- What the queues and the blocks beyond see of a link command: at most a commit's releases or ends, but that the
commands of the incident unit change that unit. -/
theorem linkAct_queuesOk (c : LinkCode) (i : LineNo) (args : List Byte) {s : State} (h : s.QueuesOk) :
    (linkAct c i args s).1.QueuesOk := by
  cases c with
  | result | identify | readStaged | readActive | queryLine | queryPart => exact h
  | stage =>
    simp only [linkAct, stageLine]
    split
    · exact h
    · split
      · exact h
      · exact h.congr (fun q => by simp) rfl rfl
  | arm =>
    obtain ⟨hleaves, -⟩ := armLine_leaves i args s
    simp only [linkAct]
    generalize (armLine i args s).1 = t at hleaves ⊢
    cases hleaves with
    | unchanged => exact h
    | pends t => exact h.congr (fun q => by simp) rfl rfl
    | refuses => exact h.congr (fun q => by simp) rfl rfl
    | applies => exact (applyCommit_leaves .commitUnit i s).queuesOk h
  | disarm =>
    simp only [linkAct, disarmLine]
    split
    · exact (cancelPending_leaves i s).queuesOk h
    · exact h
  | mark =>
    simp only [linkAct, markPart]
    exact markEvent_queuesOk h
  | flush =>
    simp only [linkAct, flushLine]
    split
    · exact (abandon_leaves .flush _ (fun q => State.setLine_intake ..) rfl ⟨rfl, rfl, rfl, rfl⟩).queuesOk h
    · exact h
  | engage => exact h.congr (fun q => by cases q <;> rfl) rfl rfl
  | disengage =>
    simp only [linkAct, disengagePart]
    exact h.endHeld (fun q => by rw [intake_abandon, setMode_intake]) rfl rfl
  | takeIncident =>
    simp only [linkAct, takeIncidentPart]
    split
    · exact h
    · exact h.congr (fun q => by cases q <;> rfl) rfl rfl
  | setEnables | clearOverflow => exact h.congr (fun q => by cases q <;> rfl) rfl rfl
  | clear =>
    simp only [linkAct]
    rw [clearPart_fst, clearLine_empties.foldl_recordsOnly allLines s]
    exact h.endHeld (which := fun _ => true) (fun q => by cases q <;> rfl) rfl rfl

theorem queuesOk_keptByFrames : KeptByFrames State.QueuesOk where
  shift bytes s _ h := h.congr (fun q => by simp) rfl rfl
  status status s _ h := h.congr (fun q => by simp) rfl rfl
  act c i args s _ h := (linkAct_queuesOk c i args h).congr (fun q => by simp [reply]) rfl rfl

/-! ### Every command -/

/-- The blocks' state that a power-on reset leaves. -/
def State.Initial (s : State) : Prop :=
  s.portA = Intake.initial ∧ s.portB = Intake.initial ∧ s.engine = LineEngine.initial ∧ s.commit = CommitUnit.initial
    ∧ s.memQueue = [] ∧ s.incidents = IncidentUnit.initial ∧ s.handed = [] ∧ s.link = Link.initial

theorem State.Initial.intake {s : State} (h : s.Initial) (p : Port) : s.intake p = Intake.initial := by
  obtain ⟨hA, hB, -⟩ := h
  cases p
  · exact hA
  · exact hB

theorem State.Initial.queuesOk {s : State} (h : s.Initial) : s.QueuesOk := by
  obtain ⟨-, -, -, -, hm, -⟩ := id h
  refine ⟨fun p => ?_, ⟨by simp [hm], fun p => by rw [hm, h.intake]; rfl⟩, fun _ p => by rw [h.intake]; rfl⟩
  rw [h.intake]
  exact ⟨by decide, List.Pairwise.nil, fun e he => absurd he (List.not_mem_nil), by decide⟩

/-- What a system reset leaves of the intakes and the memory queue. -/
theorem execSystemReset_queuesOk {s t : State} (h : s.QueuesOk) (hs : execSystemReset s = .next t) : t.QueuesOk := by
  obtain ⟨held, asserted⟩ := systemResetEmptiesEveryLine s
  cases hr : s.sysrstnLow with
  | true =>
    rw [← exec_systemReset, held hr] at hs
    cases hs
    exact h
  | false =>
    obtain ⟨u, hu, -, hi, -, -, hm, -⟩ := asserted hr
    rw [← exec_systemReset, hu] at hs
    cases hs
    have noTag : ∀ p, t.memQueue.filterMap (Transaction.tagOn p) = [] := fun p => by
      rw [hm, List.filterMap_map]
      exact List.filterMap_eq_nil_iff.mpr fun x _ => rfl
    obtain ⟨-, ⟨hlen, -⟩, -⟩ := h
    refine ⟨fun p => ?_, ⟨?_, fun p => ?_⟩, fun _ p => by rw [hi]⟩
    · rw [hi]
      exact ⟨Nat.zero_le _, List.Pairwise.nil, fun e he => absurd he (List.not_mem_nil), by simp⟩
    · rw [hm, List.length_map]
      exact hlen
    · rw [noTag, hi]
      rfl

/-- A reset input that goes high asks no more of the queues. -/
theorem State.QueuesOk.released {s t : State} (h : s.QueuesOk) (hi : ∀ q, t.intake q = s.intake q)
    (hm : t.memQueue = s.memQueue) (hr : t.inReset = true → s.inReset = true) : t.QueuesOk := by
  obtain ⟨hok, ⟨hlen, htags⟩, hreset⟩ := h
  refine ⟨fun q => hi q ▸ hok q, ⟨hm ▸ hlen, fun q => ?_⟩, fun hin q => ?_⟩
  · rw [hm, hi, htags]
  · rw [hi, hreset (hr hin) q]

/-- Every command that is no frame of the link keeps the queues in order. -/
theorem block_queuesOk (c : Instr) (s t : State) (hc : Instr.linkCommand c = none) (h : s.QueuesOk)
    (hs : exec c s = .next t) : t.QueuesOk := by
  cases c with
  | take => exact execTake_queuesOk h hs
  | memoryAnswer status data => exact execMemoryAnswer_queuesOk h hs
  | systemReset => exact execSystemReset_queuesOk h hs
  | markEdge =>
    cases hs
    split
    · exact h
    · exact markEvent_queuesOk h
  | requestAcceptance p access addr size =>
    cases hs
    split
    · exact h
    · rename_i hroom
      obtain ⟨hr, hlen⟩ := not_or.mp hroom
      exact h.setIntake ((h.1 p).accept (Nat.lt_of_not_le hlen) access addr size) (accept_issuedTags ..)
        fun hin => absurd hin hr
  | answerDelivery p =>
    cases hs
    obtain ⟨hok, htags⟩ := (h.1 p).deliver
    exact h.setIntake hok htags fun hin => deliver_openList_eq_nil (h.2.2 hin p)
  | expiry p =>
    cases hs
    split
    · exact h
    · split
      · exact expire_queuesOk h
      · exact h
  | presentTransaction =>
    cases hs
    obtain ⟨hok, ⟨hlen, htags⟩, hreset⟩ := h
    refine ⟨fun q => ?_, ⟨?_, fun q => ?_⟩, hreset⟩
    · have hq := hok q
      cases q <;> exact hq
    · rwa [presentOldest_length]
    · rw [presentOldest_tags, htags]
      cases q <;> rfl
  | incidentArrival source =>
    cases hs
    split
    · exact h
    · exact h.congr (fun q => by cases q <;> rfl) rfl rfl
  | tick =>
    cases hs
    exact h.congr (fun q => by cases q <;> rfl) rfl rfl
  | badframe bytes =>
    cases hs
    exact queuesOk_keptByFrames.linkFrame bytes h
  | powerOnReset =>
    cases hs
    exact State.Initial.queuesOk ⟨rfl, rfl, rfl, rfl, rfl, rfl, rfl, rfl⟩
  | systemResetRelease =>
    cases hs
    exact h.released (fun q => by cases q <;> rfl) rfl fun hin => by simp_all [State.inReset]
  | powerOnResetRelease =>
    cases hs
    exact h.released (fun q => by cases q <;> rfl) rfl fun hin => by simp_all [State.inReset]
  | _ => cases hc

/-- The open lists, the deadlines and the memory queue stay in order in every step, whatever the lines hold. -/
theorem step_keeps_queuesOk {s t : State} (h : s.QueuesOk) (hs : step s = .next t) : t.QueuesOk :=
  step_keeps (fun s q h => h.congr (fun p => by cases p <;> rfl) rfl rfl)
    (exec_keeps queuesOk_keptByFrames block_queuesOk) h hs

end Sys2Proof.Machine
end

section
/-! ## The line table

Every movement of a record keeps it as R1, R10 and R18 say. The relation of the cursors, tail = (head − fill) mod L, is
carried as a divisibility (`Line.ok_live_iff`), in which the movements only add. -/

namespace Sys2Proof.Machine

/-! ### Images that pass the checks -/

theorem fieldChecks_pass {d : Image} (h : imageFault d = none) : ∀ c ∈ fieldChecks d, c.2 = true := by
  have none : firstBadField d = none := by
    unfold imageFault at h
    split at h
    · cases h
    · assumption
  intro c hc
  simpa using List.find?_eq_none.mp (Option.map_eq_none_iff.mp none) c hc

/-- An image that passes ARM's checks is of kind NONE, or a descriptor in force. -/
theorem inForce_of_imageFault {d : Image} (h : imageFault d = none) (hk : d.kind ≠ 0) : d.inForce := by
  refine ⟨by_contra fun hne => ?_, h⟩
  have hc := fieldChecks_pass h (0, d.isNone) (by simp [fieldChecks, hne])
  exact hk (by simpa [Image.isNone] using hc)

theorem Image.inForce.ringLength_pos {d : Image} (h : d.inForce) : 0 < d.ringLength := by
  obtain ⟨hk, hf⟩ := h
  have hc := fieldChecks_pass hf
    (16, decide ((if d.isQueue then 1 else 2) ≤ d.ringLength ∧ d.ringLength ≤ 4096)) (by simp [fieldChecks, hk])
  have hle := (of_decide_eq_true hc).1
  split at hle <;> omega

theorem Image.inForce.tapCount_pos {d : Image} (h : d.inForce) : 0 < d.tapCount := by
  obtain ⟨hk, hf⟩ := h
  have hc := fieldChecks_pass hf (18, decide (1 ≤ d.tapCount ∧ d.tapCount ≤ 4096)) (by simp [fieldChecks, hk])
  exact (of_decide_eq_true hc).1

theorem Image.inForce.kind_ne {d : Image} (h : d.inForce) : d.kind ≠ 0 := by
  obtain ⟨hk | hk, -⟩ := h <;> omega

/-! ### Records -/

theorem Line.isLive_iff (l : Line) : l.isLive = true ↔ l.state = .live := by
  simp [Line.isLive]

theorem Line.isLive_eq_false_iff (l : Line) : l.isLive = false ↔ l.state = .idle := by
  unfold Line.isLive
  cases l.state <;> decide

theorem modL_lt {L : Nat} (hL : 0 < L) (x : Int) : modL x L < L := by
  have hpos : (0 : Int) < L := by exact_mod_cast hL
  have h0 := Int.emod_nonneg x hpos.ne'
  have h1 := Int.emod_lt_of_pos x hpos
  unfold modL
  omega

theorem eq_modL_iff {L t : Nat} (hL : 0 < L) (ht : t < L) (x : Int) : t = modL x L ↔ (L : Int) ∣ x - t := by
  have hpos : (0 : Int) < L := by exact_mod_cast hL
  have h0 := Int.emod_nonneg x hpos.ne'
  have small : (t : Int) % L = t := Int.emod_eq_of_lt (by omega) (by exact_mod_cast ht)
  have cast : t = modL x L ↔ (t : Int) = x % L := by
    unfold modL
    omega
  rw [cast, ← Int.emod_eq_emod_iff_emod_sub_eq_zero.trans (Int.dvd_iff_emod_eq_zero).symm, small]
  exact eq_comm

/-- The ring length divides what a remainder takes away. -/
theorem dvd_sub_mod (n L : Nat) : (L : Int) ∣ (n : Int) - (n % L : Nat) := by
  rw [Int.natCast_mod]
  exact Int.dvd_self_sub_emod

/-- The ranges and the relation of R10 and R18 on a LIVE line, the relation as a divisibility. -/
theorem Line.ok_live_iff {l : Line} (hl : l.isLive = true) :
    l.Ok ↔ l.active.inForce ∧ l.fill ≤ l.L ∧ l.head < l.L ∧ l.tail < l.L
      ∧ (l.L : Int) ∣ (l.head : Int) - l.fill - l.tail ∧ l.walkA < l.active.tapCount ∧ l.walkB < l.active.tapCount := by
  simp only [Line.Ok, (Line.isLive_iff l).mp hl]
  refine and_congr_right fun hforce => and_congr_right fun _ => and_congr_right fun _ => and_congr_right fun ht => ?_
  rw [eq_modL_iff (L := l.L) hforce.ringLength_pos ht]

theorem Line.ok_of_live {l : Line} (hl : l.isLive = true) (hforce : l.active.inForce) (hfill : l.fill ≤ l.L)
    (hhead : l.head < l.L) (htail : l.tail < l.L) (hdvd : (l.L : Int) ∣ (l.head : Int) - l.fill - l.tail)
    (hA : l.walkA < l.active.tapCount) (hB : l.walkB < l.active.tapCount) : l.Ok :=
  (Line.ok_live_iff hl).mpr ⟨hforce, hfill, hhead, htail, hdvd, hA, hB⟩

theorem Line.ok_idle_iff {l : Line} (hl : l.isLive = false) :
    l.Ok ↔ l.active = zeroImage ∧ l.head = 0 ∧ l.tail = 0 ∧ l.fill = 0 ∧ l.walkA = 0 ∧ l.walkB = 0
      ∧ l.suspect = false := by
  simp only [Line.Ok, (Line.isLive_eq_false_iff l).mp hl]

/-- What records say of the outcome of commits is no part of R1's ranges. -/
theorem Line.Ok.withOutcome {l : Line} (h : l.Ok) (outcome : CommitOutcome) :
    ({ l with lastOutcome := outcome } : Line).Ok :=
  h

theorem Line.Ok.withSuspect {l : Line} (h : l.Ok) (hl : l.isLive = true) : ({ l with suspect := true } : Line).Ok := by
  obtain ⟨hforce, hfill, hhead, htail, hdvd, hA, hB⟩ := (Line.ok_live_iff hl).mp h
  exact Line.ok_of_live hl hforce hfill hhead htail hdvd hA hB

/-- A LIVE line emptied, under any descriptor in force. -/
theorem Line.emptied_ok {l : Line} (hl : l.isLive = true) (h : l.active.inForce) : l.emptied.Ok :=
  Line.ok_of_live hl h (Nat.zero_le _) h.ringLength_pos h.ringLength_pos ⟨0, rfl⟩ h.tapCount_pos h.tapCount_pos

theorem Line.Ok.inForce {l : Line} (h : l.Ok) (hl : l.isLive = true) : l.active.inForce :=
  ((Line.ok_live_iff hl).mp h).1

theorem Line.Ok.emptied {l : Line} (h : l.Ok) : l.emptied.Ok := by
  cases hl : l.isLive with
  | true => exact Line.emptied_ok hl (h.inForce hl)
  | false =>
    obtain ⟨ha, -⟩ := (Line.ok_idle_iff hl).mp h
    exact (Line.ok_idle_iff (l := l.emptied) hl).mpr ⟨ha, rfl, rfl, rfl, rfl, rfl, rfl⟩

theorem Line.retired_ok (l : Line) : l.retired.Ok :=
  (Line.ok_idle_iff (l := l.retired) rfl).mpr ⟨rfl, rfl, rfl, rfl, rfl, rfl, rfl⟩

section
variable {l : Line} (h : l.Ok) (hl : l.isLive = true)
include h hl

/-- The head advance adds one, or one less the ring length. -/
theorem Line.Ok.advanceHead : (if l.head + 1 = l.L then 0 else l.head + 1) < l.L
    ∧ (l.L : Int) ∣ ((if l.head + 1 = l.L then 0 else l.head + 1 : Nat) : Int) - l.head - 1 := by
  obtain ⟨-, -, hhead, -⟩ := (Line.ok_live_iff hl).mp h
  split
  · rename_i hw
    refine ⟨by omega, ⟨-1, ?_⟩⟩
    push_cast
    omega
  · refine ⟨by omega, ⟨0, ?_⟩⟩
    push_cast
    omega

theorem Line.Ok.delayPush : l.delayPush.Ok := by
  obtain ⟨hforce, -⟩ := (Line.ok_live_iff hl).mp h
  have hL : 0 < l.L := hforce.ringLength_pos
  rw [Line.delayPush_eq]
  generalize hx : (((if l.head + 1 = l.L then 0 else l.head + 1 : Nat) : Int) - (min (l.fill + 1) l.L : Nat)) = x
  refine Line.ok_of_live hl hforce (min_le_right _ _) ((h.advanceHead hl).1) (modL_lt hL x) ?_ hforce.tapCount_pos
    hforce.tapCount_pos
  simp only [hx]
  exact (eq_modL_iff hL (modL_lt hL x) x).mp rfl

theorem Line.Ok.enqueue (hroom : l.fill < l.L) : l.enqueue.Ok := by
  obtain ⟨hforce, hfill, hhead, htail, hdvd, hA, hB⟩ := (Line.ok_live_iff hl).mp h
  obtain ⟨hnew, hstep⟩ := h.advanceHead hl
  rw [Line.enqueue_eq]
  refine Line.ok_of_live hl hforce hroom hnew htail ?_ hA hB
  have sum := dvd_add hstep hdvd
  refine sum.trans (dvd_of_eq ?_)
  push_cast
  ring

theorem Line.Ok.displace (hfull : l.L ≤ l.fill) : l.displace.Ok := by
  obtain ⟨hforce, hfill, hhead, htail, hdvd, -, -⟩ := (Line.ok_live_iff hl).mp h
  obtain ⟨hnew, hstep⟩ := h.advanceHead hl
  have hL : 0 < l.L := hforce.ringLength_pos
  have heq : l.fill = l.L := le_antisymm hfill hfull
  rw [Line.displace_eq]
  refine Line.ok_of_live hl hforce (le_refl _) hnew (Nat.mod_lt _ hL) ?_ hforce.tapCount_pos hforce.tapCount_pos
  have sum := dvd_add (dvd_add hstep hdvd) (dvd_sub_mod (l.tail + 1) l.L)
  refine sum.trans (dvd_of_eq ?_)
  rw [heq]
  push_cast
  ring

/-- Removing `m` elements from the oldest end. -/
theorem Line.Ok.remove {m : Nat} (hm : m ≤ l.fill) :
    ({ l with tail := (l.tail + m) % l.L, fill := l.fill - m, walkA := 0, walkB := 0 } : Line).Ok := by
  obtain ⟨hforce, hfill, hhead, htail, hdvd, -, -⟩ := (Line.ok_live_iff hl).mp h
  have hL : 0 < l.L := hforce.ringLength_pos
  refine Line.ok_of_live hl hforce ((Nat.sub_le _ _).trans hfill) hhead (Nat.mod_lt _ hL) ?_ hforce.tapCount_pos
    hforce.tapCount_pos
  have sum := dvd_add hdvd (dvd_sub_mod (l.tail + m) l.L)
  refine sum.trans (dvd_of_eq ?_)
  push_cast [hm]
  ring

theorem Line.Ok.advanceWalk (p : Port) : (l.advanceWalk p).Ok := by
  obtain ⟨hforce, hfill, hhead, htail, hdvd, hA, hB⟩ := (Line.ok_live_iff hl).mp h
  cases p
  · exact Line.ok_of_live hl hforce hfill hhead htail hdvd (Nat.mod_lt _ hforce.tapCount_pos) hB
  · exact Line.ok_of_live hl hforce hfill hhead htail hdvd hA (Nat.mod_lt _ hforce.tapCount_pos)

end

/-- A soft commit's record: another descriptor in force with the same ring length, and the walk cursors reset. -/
theorem Line.Ok.soft {l : Line} (h : l.Ok) (hl : l.isLive = true) {d : Image} (hd : d.inForce)
    (hL : d.ringLength = l.active.ringLength) :
    ({ l.committed .appliedSoft with active := d } : Line).Ok := by
  obtain ⟨-, hfill, hhead, htail, hdvd, -, -⟩ := (Line.ok_live_iff hl).mp h
  refine Line.ok_of_live hl hd ?_ ?_ ?_ ?_ hd.tapCount_pos hd.tapCount_pos
  all_goals simp only [Line.L, hL, Line.committed, Line.resetWalks]
  · exact hfill
  · exact hhead
  · exact htail
  · exact hdvd

end Sys2Proof.Machine
end

section
/-! ## The line table, the pending commits, the urgencies and the held entries

The part of the invariant that ties these together (`State.TableOk`), and how it survives the change of one line. -/

namespace Sys2Proof.Machine

/-! ### What decoding grants -/

theorem mem_windowsMet {s : State} {r : Span} {i : LineNo} (h : i ∈ windowsMet s r) : (s.line i).isLive = true :=
  (Bool.and_eq_true_iff.mp (List.mem_filter.mp h).2).1

theorem decodeIndex_pop {d : Image} {write : Bool} {index : Nat} (h : decodeIndex d write index = .ok .pop) :
    d.isQueue = true := by
  unfold decodeIndex at h
  split at h
  case h_1 =>
    split at h
    · assumption
    · cases h
  all_goals
    try split at h
    all_goals cases h

theorem decodeInWindow_pop {d : Image} {access : Access} {addr : Addr} {size : Size}
    (h : decodeInWindow d access addr size = .ok .pop) : d.isQueue = true := by
  simp only [decodeInWindow] at h
  split at h
  · cases h
  · split at h
    · cases h
    · exact decodeIndex_pop h

/-- An operation is decoded in ENGAGED mode, on a LIVE line, and a pop on a QUEUE line. -/
theorem decodeRequest_operation {s : State} {access : Access} {addr : Addr} {size : Size} {i : LineNo} {op : LineOp}
    (h : decodeRequest s access addr size = .operation i op) :
    s.engine.mode = .engaged ∧ (s.line i).isLive = true ∧ (op = .pop → (s.line i).active.isQueue = true) := by
  unfold decodeRequest at h
  split at h
  · cases h
  · rename_i hm
    refine ⟨hm, ?_⟩
    simp only [decodeEngaged] at h
    split at h
    · split at h <;> cases h
    · rename_i lowest more hw
      split at h
      · cases h
      · rename_i j hj
        split at h
        · rename_i op' hop
          cases h
          refine ⟨mem_windowsMet (hw ▸ List.mem_of_find?_eq_some hj), ?_⟩
          rintro rfl
          exact decodeInWindow_pop hop
        · cases h

/-! ### Held entries -/

/-- What keeps an operation parked on a LIVE queue: an empty queue for a pop, a full one for a push, and policy
STALL. -/
def Line.HoldsParked (l : Line) : ParkedOp → Prop
  | .pop => l.fill = 0 ∧ l.active.underrunPolicy = 2
  | .push => l.fill = l.L ∧ l.active.overflowPolicy = 2

theorem Entry.heldOk_iff (s : State) (e : Entry) :
    Entry.heldOk s e ↔ (Entry.isHeld e = true → s.engine.mode = .engaged ∧ ∃ i op, Entry.parkedOp e = some (i, op)
      ∧ (s.line i).isLive = true ∧ (s.line i).active.isQueue = true
      ∧ (e.state = .parked → (s.line i).HoldsParked op)) := by
  unfold Entry.heldOk
  refine imp_congr_right fun _ => and_congr_right fun _ => ?_
  cases hp : Entry.parkedOp e with
  | none => simp
  | some c =>
    obtain ⟨i, op⟩ := c
    cases op <;> simp [Line.HoldsParked]

theorem Entry.heldOk_of_not_held {s : State} {e : Entry} (h : Entry.isHeld e = false) : Entry.heldOk s e :=
  fun hh => absurd (h.symm.trans hh) Bool.false_ne_true

/-- An entry stays as R88 to R94 say, held or released, where the line it is held on does. -/
theorem Entry.heldOk_transfer {s t : State} {x x' : Entry} (h : Entry.heldOk s x)
    (hheld : Entry.isHeld x' = true → Entry.isHeld x = true) (hop : Entry.parkedOp x' = Entry.parkedOp x)
    (hmode : t.engine.mode = s.engine.mode)
    (hline : ∀ i op, Entry.isHeld x' = true → Entry.parkedOp x = some (i, op) → (s.line i).isLive = true →
      (s.line i).active.isQueue = true → (x.state = .parked → (s.line i).HoldsParked op) →
      (t.line i).isLive = true ∧ (t.line i).active.isQueue = true ∧ (x'.state = .parked → (t.line i).HoldsParked op)) :
    Entry.heldOk t x' := by
  rw [Entry.heldOk_iff] at h ⊢
  intro hx'
  obtain ⟨hm, i, op, hp, hl, hq, hb⟩ := h (hheld hx')
  exact ⟨hmode.trans hm, i, op, hop.trans hp, hline i op hx' hp hl hq hb⟩

theorem State.HeldOk.map {s t : State} {f : Entry → Entry} (h : s.HeldOk)
    (hl : ∀ q, (t.intake q).openList = (s.intake q).openList.map f)
    (hf : ∀ x, Entry.heldOk s x → Entry.heldOk t (f x)) : t.HeldOk := by
  intro q x hx
  rw [hl] at hx
  obtain ⟨y, hy, rfl⟩ := List.mem_map.mp hx
  exact hf y (h q y hy)

/-- No entry is held in `t` that was not an entry of `s`. -/
def State.NoNewHeld (s t : State) : Prop :=
  ∀ (q : Port) (x : Entry), x ∈ (t.intake q).openList → Entry.isHeld x = true → x ∈ (s.intake q).openList

theorem State.noNewHeld_of_lists {s t : State} (h : ∀ q, (t.intake q).openList = (s.intake q).openList) :
    s.NoNewHeld t :=
  fun q _ hx _ => h q ▸ hx

/-- Where records keep their state, descriptor and fill, and no entry is newly held, the held entries stay right. -/
theorem State.HeldOk.congr {s t : State} (h : s.HeldOk) (hl : s.NoNewHeld t)
    (hmode : t.engine.mode = s.engine.mode) (hlive : ∀ i, (t.line i).isLive = (s.line i).isLive)
    (hactive : ∀ i, (t.line i).active = (s.line i).active) (hfill : ∀ i, (t.line i).fill = (s.line i).fill) :
    t.HeldOk := by
  intro q x hx
  cases hheld : Entry.isHeld x with
  | false => exact Entry.heldOk_of_not_held hheld
  | true =>
    refine Entry.heldOk_transfer (h q x (hl q x hx hheld)) id rfl hmode fun i op _ _ hli hqu hb => ?_
    rw [hlive, hactive]
    refine ⟨hli, hqu, fun hp => ?_⟩
    have hb := hb hp
    cases op <;> simpa only [Line.HoldsParked, Line.L, hactive, hfill] using hb

/-- The entry after its end, where `which` picks it: it is held no more, or was not picked. -/
theorem Entry.heldOk_endEntry {t : State} {which : Entry → Bool} {x : Entry}
    (h : which x = false → Entry.heldOk t x) : Entry.heldOk t (endEntry which x) := by
  obtain ⟨heq, hw⟩ | ⟨-, -, heq⟩ := endEntry_cases which x <;> rw [heq]
  · cases hh : Entry.isHeld x with
    | true => exact h (hw hh)
    | false => exact Entry.heldOk_of_not_held hh
  · exact Entry.heldOk_of_not_held rfl

theorem Releases.parkedOp {f : Entry → Entry} (hf : Releases f) (x : Entry) :
    Entry.parkedOp (f x) = Entry.parkedOp x := by
  obtain h | ⟨-, h⟩ := hf x <;> rw [h]
  rfl

theorem Releases.eq_of_parked {f : Entry → Entry} (hf : Releases f) {x : Entry} (h : (f x).state = .parked) :
    f x = x := by
  obtain hx | ⟨-, hx⟩ := hf x
  · exact hx
  · rw [hx] at h
    cases h

/-! ### The table's part of the invariant -/

/-- The records, the spans, the pending commits, the urgencies and the held entries. -/
structure State.TableOk (s : State) : Prop where
  lines : s.LinesOk
  spans : s.SpansDisjoint
  pending : s.PendingOk
  urgency : s.UrgencyOk
  held : s.HeldOk

theorem State.TableOk.congr {s t : State} (h : s.TableOk) (he : t.engine = s.engine) (hc : t.commit = s.commit)
    (hl : s.NoNewHeld t) : t.TableOk := by
  have line : ∀ i, t.line i = s.line i := fun i => by rw [State.line, he, State.line]
  have staged : ∀ i, t.stagedOf i = s.stagedOf i := fun i => by rw [State.stagedOf, hc, State.stagedOf]
  have pending : ∀ i, t.pendingOf i = s.pendingOf i := fun i => by rw [State.pendingOf, hc, State.pendingOf]
  refine ⟨fun i => line i ▸ h.lines i, fun i j => ?_, fun i tr => ?_, ?_,
    h.held.congr hl (by rw [he]) (fun i => by rw [line]) (fun i => by rw [line]) fun i => by rw [line]⟩
  · rw [line, line]
    exact h.spans i j
  · rw [pending, staged, line]
    exact h.pending i tr
  · rw [State.UrgencyOk, he]
    exact h.urgency

theorem Image.spansMeet_comm (d c : Image) : d.spansMeet c = c.spansMeet d := by
  simp only [Image.spansMeet, Span.meets_comm c.windowSpan, Span.meets_comm c.ringSpan]
  cases Span.meets d.windowSpan c.windowSpan <;> cases Span.meets d.windowSpan c.ringSpan <;>
    cases Span.meets d.ringSpan c.windowSpan <;> simp

theorem State.SpansDisjoint.noClash {s : State} (h : s.SpansDisjoint) {i : LineNo} (hl : (s.line i).isLive = true) :
    s.NoClash i (s.line i).active :=
  fun j hj hjl => h i j (fun h => hj h.symm) hl hjl

/-- The table after one line's record has changed: the record is as R1 says and clashes with no other LIVE line, pending
commits stay or end, and the urgencies and the held entries are right. -/
theorem State.TableOk.setLine {s t : State} {i : LineNo} {l : Line} (h : s.TableOk)
    (hline : ∀ j, t.line j = if j = i then l else s.line j) (hok : l.Ok)
    (hspan : l.isLive = true → s.NoClash i l.active)
    (hpend : ∀ j tr, t.pendingOf j = some tr → s.pendingOf j = some tr ∧ t.stagedOf j = s.stagedOf j
      ∧ (j = i → (s.line i).isLive = true → l.isLive = true))
    (hurg : t.UrgencyOk) (hheld : t.HeldOk) : t.TableOk := by
  refine ⟨fun j => ?_, fun j k hjk hj hk => ?_, fun j tr hp => ?_, hurg, hheld⟩
  · rw [hline]
    split
    · exact hok
    · exact h.lines j
  · rw [hline] at hj hk ⊢
    rw [hline]
    by_cases hji : j = i
    · have hki : k ≠ i := fun hki => hjk (hji.trans hki.symm)
      rw [if_pos hji] at hj ⊢
      rw [if_neg hki] at hk ⊢
      exact hspan hj k hki hk
    · rw [if_neg hji] at hj ⊢
      by_cases hki : k = i
      · rw [if_pos hki] at hk ⊢
        rw [Image.spansMeet_comm]
        exact hspan hk j hji hj
      · rw [if_neg hki] at hk ⊢
        exact h.spans j k hjk hj hk
  · obtain ⟨hs, hst, hlive⟩ := hpend j tr hp
    obtain ⟨himage, hor⟩ := h.pending j tr hs
    rw [hst, hline]
    refine ⟨himage, hor.imp_left fun hl => ?_⟩
    split
    · rename_i hj
      exact hlive hj (hj ▸ hl)
    · exact hl

theorem urgencyOf_congr {s t : State} (p : Port) (h : ∀ i, (t.line i).urges p = (s.line i).urges p) :
    urgencyOf t.engine.lines p = urgencyOf s.engine.lines p := by
  have test : (fun i : LineNo => t.engine.lines[i].urges p) = fun i : LineNo => s.engine.lines[i].urges p :=
    funext fun i => h i
  unfold urgencyOf
  rw [test]

/-- The urgencies stay right where no line's contribution changes. -/
theorem State.UrgencyOk.congr {s t : State} (h : s.UrgencyOk) (hu : ∀ q, t.urgent q = s.urgent q)
    (hl : ∀ i q, (t.line i).urges q = (s.line i).urges q) : t.UrgencyOk := by
  obtain ⟨hA, hB⟩ := h
  refine ⟨?_, ?_⟩
  · rw [urgencyOf_congr .A fun i => hl i .A, ← hA]
    exact hu .A
  · rw [urgencyOf_congr .B fun i => hl i .B, ← hB]
    exact hu .B

/-- The table after a record has changed in parts that no other rule looks at. -/
theorem State.TableOk.retouch {s t : State} {i : LineNo} {l : Line} (h : s.TableOk)
    (hline : ∀ j, t.line j = if j = i then l else s.line j) (hok : l.Ok) (hlive : l.isLive = (s.line i).isLive)
    (hactive : l.active = (s.line i).active) (hfill : l.fill = (s.line i).fill)
    (hpend : ∀ j tr, t.pendingOf j = some tr → s.pendingOf j = some tr ∧ t.stagedOf j = s.stagedOf j)
    (hmode : t.engine.mode = s.engine.mode) (hurg : ∀ q, t.urgent q = s.urgent q) (hl : s.NoNewHeld t) :
    t.TableOk := by
  have same : ∀ j, (t.line j).isLive = (s.line j).isLive ∧ (t.line j).active = (s.line j).active
      ∧ (t.line j).fill = (s.line j).fill := by
    intro j
    rw [hline]
    split
    · rename_i hj
      exact hj ▸ ⟨hlive, hactive, hfill⟩
    · exact ⟨rfl, rfl, rfl⟩
  refine h.setLine hline hok (fun hl => ?_) (fun j tr hp => ?_) (h.urgency.congr hurg fun j q => ?_)
    (h.held.congr hl hmode (fun j => (same j).1) (fun j => (same j).2.1) fun j => (same j).2.2)
  · rw [hactive]
    exact h.spans.noClash (hlive ▸ hl)
  · obtain ⟨hs, hst⟩ := hpend j tr hp
    exact ⟨hs, hst, fun _ hl => hlive.trans hl⟩
  · obtain ⟨h1, h2, h3⟩ := same j
    rw [Line.urges, h1, h2, h3, Line.urges]

theorem recomputeUrgency_ok (s : State) : (recomputeUrgency s).UrgencyOk := ⟨rfl, rfl⟩

theorem urges_setLine {s t : State} {i : LineNo} {l : Line} (hline : ∀ j, t.line j = if j = i then l else s.line j)
    (hl : ∀ q, l.urges q = (s.line i).urges q) (j : LineNo) (q : Port) : (t.line j).urges q = (s.line j).urges q := by
  rw [hline]
  split
  · rename_i hj
    rw [hl, hj]
  · rfl

/-! ### The move of a take -/

section
variable {s : State} {p : Port} {d : Decoded} {i : LineNo} {l : Line} {released : Option ParkedOp} {recomputed : Bool}
  (hm : TakeMove s p d i l released recomputed)
include hm

/-- No take changes a line's state or descriptor. -/
theorem TakeMove.same : l.state = (s.line i).state ∧ l.active = (s.line i).active := by
  cases hm with
  | walks => cases p <;> exact ⟨rfl, rfl⟩
  | discards =>
    unfold Line.discard
    split <;> exact ⟨rfl, rfl⟩
  | _ => exact ⟨rfl, rfl⟩

theorem TakeMove.isLive : l.isLive = (s.line i).isLive := by
  rw [Line.isLive, hm.same.1, Line.isLive]

theorem TakeMove.ok (hok : (s.line i).Ok) (hlive : ∀ op, d = .operation i op → (s.line i).isLive = true) : l.Ok := by
  cases hm with
  | keeps => exact hok
  | walks op hd => exact hok.advanceWalk (hlive _ hd) p
  | delayPushes hd => exact hok.delayPush (hlive _ hd)
  | enqueues hd _ room => exact hok.enqueue (hlive _ hd) room
  | displaces hd _ full => exact hok.displace (hlive _ hd) full
  | dequeues hd filled => exact hok.remove (hlive _ hd) filled
  | discards n hd removes =>
    rw [Line.discard_eq removes]
    exact hok.remove (hlive _ hd) (min_le_right _ _)

/-- A move without a recomputation changes no contribution to urgency. -/
theorem TakeMove.urges (hok : (s.line i).Ok) (hr : recomputed = false) (q : Port) : l.urges q = (s.line i).urges q := by
  cases hm with
  | keeps => rfl
  | walks => cases p <;> rfl
  | delayPushes hd delay =>
    have hd' : (s.line i).delayPush.active.isQueue = false := delay
    simp [Line.urges, delay, hd']
  | displaces hd queue full =>
    cases hl : (s.line i).isLive with
    | true =>
      obtain ⟨-, hfill, -⟩ := (Line.ok_live_iff hl).mp hok
      have heq : (s.line i).displace.fill = (s.line i).fill := le_antisymm full hfill
      unfold Line.urges
      rw [heq]
      rfl
    | false =>
      have hl' : (s.line i).displace.isLive = false := hl
      simp [Line.urges, hl, hl']
  | enqueues | dequeues | discards => cases hr

/-- What parks an operation stays so through the move, unless the move releases it. -/
theorem TakeMove.holdsParked {op : ParkedOp} (hq : (s.line i).active.isQueue = true)
    (hp : (s.line i).HoldsParked op) (hr : released ≠ some op) : l.HoldsParked op := by
  cases hm with
  | keeps => exact hp
  | walks => cases p <;> cases op <;> exact hp
  | delayPushes hd delay => exact absurd (hq.symm.trans delay) (by decide)
  | enqueues hd queue room =>
    cases op with
    | pop => exact absurd rfl hr
    | push => exact absurd hp.1 room.ne
  | displaces hd queue full =>
    cases op with
    | pop => exact absurd rfl hr
    | push => exact ⟨rfl, hp.2⟩
  | dequeues hd filled =>
    cases op with
    | pop => exact absurd hp.1 filled.ne'
    | push => exact absurd rfl hr
  | discards n hd removes =>
    cases op with
    | pop => exact absurd hp.1 (lt_of_lt_of_le removes (min_le_right _ _)).ne'
    | push => exact absurd rfl hr

/-- A take that could park its own operation releases none of that kind. -/
theorem TakeMove.released_ne {j : LineNo} {op : ParkedOp} (hd : d = .operation j op.lineOp) : released ≠ some op := by
  rintro rfl
  cases hm with
  | enqueues decoded | displaces decoded => cases decoded.symm.trans hd
  | dequeues decoded => cases decoded.symm.trans hd
  | discards n decoded => cases decoded.symm.trans hd

end

end Sys2Proof.Machine
end

section
namespace Sys2Proof.Machine

/-! ### The table after a take -/

theorem releases_releasing (i : LineNo) (released : Option ParkedOp) : Releases (releasing i released) := by
  cases released with
  | none => exact releases_id
  | some op => exact releases_releasedFrom i op

/-- An entry that is still parked after a release was not parked on the released operation. -/
theorem released_ne_of_parked {i : LineNo} {released : Option ParkedOp} {op : ParkedOp} {x : Entry}
    (hp : Entry.parkedOp x = some (i, op)) (h : (releasing i released x).state = .parked) : released ≠ some op := by
  rintro rfl
  have hx := (releases_releasedFrom i op).eq_of_parked h
  have hs : x.state = .parked := hx ▸ h
  have hrel : Entry.releasedFrom i op x = { x with state := .released } := if_pos ⟨hs, hp⟩
  rw [show releasing i (some op) x = _ from hrel] at h
  cases h

theorem parkedOp_operation {op : ParkedOp} {e : Entry} {i : LineNo} :
    Entry.parkedOp (Entry.nowIs (.operation i op.lineOp) .parked e) = some (i, op) := by
  cases op <;> rfl

theorem decodeTaken_cases (s : State) (e : Entry) :
    decodeTaken s e = decodeRequest s e.access e.addr e.size
      ∨ (e.state = .released ∧ ∃ i op, Entry.parkedOp e = some (i, op) ∧ decodeTaken s e = .operation i op.lineOp) := by
  unfold decodeTaken
  split
  · rename_i i hs hp
    exact .inr ⟨hs, i, .push, hp, rfl⟩
  · rename_i i hs hp
    exact .inr ⟨hs, i, .pop, hp, rfl⟩
  · exact .inl rfl

/-- A taken operation is one in ENGAGED mode of a LIVE line, and a pop one of a QUEUE line. -/
theorem decodeTaken_operation {s : State} {e : Entry} {i : LineNo} {op : LineOp} (hheld : Entry.heldOk s e)
    (h : decodeTaken s e = .operation i op) :
    s.engine.mode = .engaged ∧ (s.line i).isLive = true ∧ (op = .pop → (s.line i).active.isQueue = true) := by
  obtain hd | ⟨hs, j, op', hp, hd⟩ := decodeTaken_cases s e
  · exact decodeRequest_operation (hd.symm.trans h)
  · cases hd.symm.trans h
    obtain ⟨hm, k, op'', hp', hl, hq, -⟩ := (Entry.heldOk_iff s e).mp hheld (by simp [Entry.isHeld, hs])
    cases hp.symm.trans hp'
    exact ⟨hm, hl, fun _ => hq⟩

section
variable {s u : State} {p : Port} {e : Entry} {d : Decoded} {i : LineNo} {l : Line} {released : Option ParkedOp}
  {recomputed : Bool}

/-- Every entry after a take: the taken one, or another that the take may have released. -/
theorem TakeLeaves.mem_cases {other : Entry → Entry} (h : TakeLeaves s u p e d other) (hq : s.QueuesOk)
    (ht : s.Takes p e d) {q : Port} {x : Entry} (hx : x ∈ (u.intake q).openList) (hheld : Entry.isHeld x = true) :
    (∃ y ∈ (s.intake q).openList, x = other y)
      ∨ ∃ j op, d = .operation j op.lineOp ∧ (s.line j).Blocks op ∧ x = Entry.nowIs d .parked e := by
  obtain ⟨hother, ⟨own, deadline, issued, hfate, hintake, -⟩, -⟩ := h
  obtain ⟨-, -, hnext, -⟩ := ht
  obtain ⟨before, after, ho⟩ := (hq.1 p).offersAt (nextTake_offers hnext)
  have hlist := hintake q
  by_cases hqp : q = p
  · subst hqp
    have list : (u.intake q).openList = before ++ own e :: after := by
      rw [hlist, ← ho.map_eq hother]
      simp
    rw [list] at hx
    rcases List.mem_append.mp hx with hx | hx
    · exact absurd ((ho.not_held (.inl hx)).symm.trans hheld) Bool.false_ne_true
    · rcases List.mem_cons.mp hx with rfl | hx
      · right
        cases hfate with
        | issues t origin => exact absurd hheld (by simp [Entry.isHeld, Entry.nowIs])
        | answers status data => exact absurd hheld (by simp [Entry.isHeld, Entry.nowReady])
        | parks j op decoded blocks => exact ⟨j, op, decoded, blocks, rfl⟩
      · exact absurd ((ho.not_held (.inr hx)).symm.trans hheld) Bool.false_ne_true
  · left
    rw [hlist] at hx
    obtain ⟨y, hy, rfl⟩ := List.mem_map.mp hx
    exact ⟨y, hy, by simp [hqp]⟩

theorem State.TableOk.taken_operation (h : s.TableOk) (hq : s.QueuesOk) (ht : s.Takes p e d) {j : LineNo} {op : LineOp}
    (hd : d = .operation j op) :
    s.engine.mode = .engaged ∧ (s.line j).isLive = true ∧ (op = .pop → (s.line j).active.isQueue = true) := by
  obtain ⟨-, -, hnext, hdec⟩ := ht
  obtain ⟨before, after, ho⟩ := (hq.1 p).offersAt (nextTake_offers hnext)
  exact decodeTaken_operation (h.held p e (by simp [ho.split])) (hdec.trans hd)

variable (hmove : TakeMove s p d i l released recomputed) (hlines : LineMoved s u i l recomputed)
include hmove hlines

theorem TakeMove.line_holdsParked {j : LineNo} {op : ParkedOp} (hqueue : (s.line j).active.isQueue = true)
    (hp : (s.line j).HoldsParked op) (hr : j = i → released ≠ some op) : (u.line j).HoldsParked op := by
  rw [hlines.line]
  split
  · rename_i hj
    subst hj
    exact hmove.holdsParked hqueue hp (hr rfl)
  · exact hp

theorem TakeMove.line_same (j : LineNo) :
    (u.line j).isLive = (s.line j).isLive ∧ (u.line j).active = (s.line j).active := by
  rw [hlines.line]
  split
  · rename_i hj
    subst hj
    exact ⟨hmove.isLive, hmove.same.2⟩
  · exact ⟨rfl, rfl⟩

theorem TakeMove.heldOk (h : s.TableOk) (hq : s.QueuesOk) (ht : s.Takes p e d)
    (hleaves : TakeLeaves s u p e d (releasing i released)) : u.HeldOk := by
  intro q x hx
  cases hheld : Entry.isHeld x with
  | false => exact Entry.heldOk_of_not_held hheld
  | true =>
    obtain ⟨y, hy, rfl⟩ | ⟨j, op, hd, hb, rfl⟩ := hleaves.mem_cases hq ht hx hheld
    · have hrel := releases_releasing i released
      refine Entry.heldOk_transfer (h.held q y hy) (fun hh => (hrel.isHeld y).symm.trans hh) (hrel.parkedOp y)
        hlines.mode fun j op _ hp hl hqueue hb => ?_
      obtain ⟨hlive, hactive⟩ := hmove.line_same hlines j
      refine ⟨hlive.trans hl, by rw [hactive, hqueue], fun hparked => ?_⟩
      have hy' : y.state = .parked := hrel.eq_of_parked hparked ▸ hparked
      refine hmove.line_holdsParked hlines hqueue (hb hy') ?_
      rintro rfl
      exact released_ne_of_parked hp hparked
    · obtain ⟨hmode, hl, hpop⟩ := h.taken_operation hq ht hd
      obtain ⟨hlive, hactive⟩ := hmove.line_same hlines j
      have hfill := ((Line.ok_live_iff hl).mp (h.lines j)).2.1
      have parks : (s.line j).active.isQueue = true ∧ (s.line j).HoldsParked op := by
        cases op with
        | pop => exact ⟨hpop rfl, hb⟩
        | push => exact ⟨hb.1, le_antisymm hfill hb.2.1, hb.2.2⟩
      rw [Entry.heldOk_iff]
      refine fun _ => ⟨hlines.mode.trans hmode, j, op, hd ▸ parkedOp_operation, hlive.trans hl,
        by rw [hactive, parks.1], fun _ => ?_⟩
      exact hmove.line_holdsParked hlines parks.1 parks.2 fun _ => hmove.released_ne hd

theorem TakeMove.urgencyOk (h : s.TableOk) : u.UrgencyOk := by
  have hurg := hlines.urgency
  cases recomputed with
  | true => exact hurg
  | false => exact h.urgency.congr hurg (urges_setLine hlines.line (hmove.urges (h.lines i) rfl))

theorem TakeMove.tableOk (h : s.TableOk) (hq : s.QueuesOk) (ht : s.Takes p e d)
    (hleaves : TakeLeaves s u p e d (releasing i released)) : u.TableOk := by
  refine h.setLine hlines.line (hmove.ok (h.lines i) fun op hd => ?_) (fun hl => ?_) (fun j tr hp => ?_)
    (hmove.urgencyOk hlines h) (hmove.heldOk hlines h hq ht hleaves)
  · exact (h.taken_operation hq ht hd).2.1
  · rw [hmove.isLive] at hl
    rw [hmove.same.2]
    exact h.spans.noClash hl
  · have staged : u.stagedOf j = s.stagedOf j := by rw [State.stagedOf, hlines.commit, State.stagedOf]
    have pending : u.pendingOf j = s.pendingOf j := by rw [State.pendingOf, hlines.commit, State.pendingOf]
    exact ⟨pending ▸ hp, staged, fun _ hl => hmove.isLive.trans hl⟩

end

end Sys2Proof.Machine
end

section
namespace Sys2Proof.Machine

/-! ### The table after a commit -/

/-- Held entries stay right where the line that changes has none left: they were abandoned. -/
theorem State.HeldOk.abandonLine {s t : State} {i : LineNo} (h : s.HeldOk)
    (hi : ∀ q, t.intake q = endHeld (Entry.heldOn i) (s.intake q)) (hmode : t.engine.mode = s.engine.mode)
    (hline : ∀ j, j ≠ i → t.line j = s.line j) : t.HeldOk := by
  refine h.map (f := endEntry (Entry.heldOn i)) (fun q => by rw [hi, endHeld_openList]) fun x hx =>
    Entry.heldOk_endEntry fun hoff => ?_
  refine Entry.heldOk_transfer hx id rfl hmode fun j op hheld hp hl hq hb => ?_
  have hj : j ≠ i := by
    rintro rfl
    simp [Entry.heldOn, hheld, hp] at hoff
  rw [hline j hj]
  exact ⟨hl, hq, hb⟩

/-- One line's record replaced, its held entries abandoned, and urgency recomputed; `v` is `s` but for pending commits
that are cleared. -/
theorem State.TableOk.abandonLine {s v : State} {i : LineNo} {l : Line} {source : Source} {cause : Cause}
    (h : s.TableOk) (he : v.engine = s.engine) (hi : ∀ q, v.intake q = s.intake q) (hok : l.Ok)
    (hspan : l.isLive = true → s.NoClash i l.active)
    (hpend : ∀ j tr, v.pendingOf j = some tr → s.pendingOf j = some tr ∧ v.stagedOf j = s.stagedOf j
      ∧ (j = i → (s.line i).isLive = true → l.isLive = true)) :
    (recomputeUrgency (abandon source cause (Entry.heldOn i) (v.setLine i l))).TableOk := by
  have line : ∀ j, (recomputeUrgency (abandon source cause (Entry.heldOn i) (v.setLine i l))).line j
      = if j = i then l else s.line j := fun j => by
    rw [recomputeUrgency_line, abandon_line, State.line_setLine, State.line, State.line, he]
  refine h.setLine line hok hspan (fun j tr hp => ?_) (recomputeUrgency_ok _)
    (h.held.abandonLine (i := i) (fun q => ?_) ?_ fun j hj => ?_)
  · simp only [recomputeUrgency_pendingOf, abandon_pendingOf, State.setLine_pendingOf] at hp
    simpa using hpend j tr hp
  · rw [recomputeUrgency_intake, intake_abandon, State.setLine_intake, hi]
  · show v.engine.mode = _
    rw [he]
  · rw [line, if_neg hj]

theorem pendingOf_cleared {s : State} {i j : LineNo} {tr : Trigger} (h : (s.setPending i none).pendingOf j = some tr) :
    s.pendingOf j = some tr ∧ j ≠ i := by
  rw [State.pendingOf_setPending] at h
  split at h
  · cases h
  · rename_i hj
    exact ⟨h, hj⟩

section
variable {s : State} {source : Source} {i : LineNo}

/-- A soft commit releases whatever its new policies no longer park. -/
theorem applyCommit_soft_tableOk (h : s.TableOk) (hd : (s.stagedOf i).inForce)
    (hk : (s.line i).KeptBy (s.stagedOf i)) (hclash : s.NoClash i (s.stagedOf i)) :
    (applyCommit source i s).TableOk := by
  obtain ⟨engineEq, intakes, rest⟩ := applyCommit_soft (source := source) ((commitKind_eq _ _).2.1 hd.kind_ne hk)
  generalize applyCommit source i s = t at engineEq intakes rest
  obtain ⟨hl, hkind, -, -, hL⟩ := hk
  have line : ∀ j, t.line j = if j = i then { (s.line i).committed .appliedSoft with active := s.stagedOf i }
      else s.line j := by
    intro j
    rw [State.line, engineEq]
    exact State.line_setLine s i j _
  have mode : t.engine.mode = s.engine.mode := by rw [engineEq]
  have urgency : t.UrgencyOk := ⟨congrArg LineEngine.urgentA engineEq, congrArg LineEngine.urgentB engineEq⟩
  have pending : ∀ j, t.pendingOf j = (s.setPending i none).pendingOf j := fun j => by
    rw [State.pendingOf, rest]
    rfl
  have staged : ∀ j, t.stagedOf j = s.stagedOf j := fun j => by
    rw [State.stagedOf, rest]
    rfl
  have releases := releases_byPolicy i (s.stagedOf i)
  refine h.setLine line ((h.lines i).soft hl hd hL) (fun _ => hclash) (fun j tr hp => ?_) urgency
    (h.held.map (fun q => by rw [intakes]) fun x hx => ?_)
  · rw [pending] at hp
    obtain ⟨hs, hj⟩ := pendingOf_cleared hp
    exact ⟨hs, staged j, fun hji => absurd hji hj⟩
  · refine Entry.heldOk_transfer hx (fun hh => (releases.isHeld x).symm.trans hh) (releases.parkedOp x) mode
      fun j op _ hp hlj hq hb => ?_
    rw [line]
    split
    · rename_i hj
      subst hj
      refine ⟨hl, by simpa [Image.isQueue, hkind] using hq, fun hparked => ?_⟩
      have same := releases.eq_of_parked hparked
      have hx : x.state = .parked := by
        rw [same] at hparked
        exact hparked
      have policy : ¬((op = .pop ∧ (s.stagedOf j).underrunPolicy ≠ 2)
          ∨ (op = .push ∧ (s.stagedOf j).overflowPolicy ≠ 2)) := by
        intro hc
        rw [if_pos ⟨hx, by rcases hc with ⟨rfl, hc⟩ | ⟨rfl, hc⟩ <;> simp [hp, hc]⟩] at hparked
        cases hparked
      have hb := hb hx
      cases op with
      | pop => exact ⟨hb.1, by simpa using policy⟩
      | push => exact ⟨hb.1.trans hL.symm, by simpa using policy⟩
    · exact ⟨hlj, hq, fun hparked => hb (by rwa [releases.eq_of_parked hparked] at hparked)⟩

theorem applyCommit_tableOk (h : s.TableOk) (image : imageFault (s.stagedOf i) = none)
    (fits : clashCheck s i (s.stagedOf i) = none) : (applyCommit source i s).TableOk := by
  have cleared : ∀ (live : Prop) j tr, (s.setPending i none).pendingOf j = some tr → s.pendingOf j = some tr
      ∧ (s.setPending i none).stagedOf j = s.stagedOf j ∧ (j = i → (s.line i).isLive = true → live) := by
    intro live j tr hp
    obtain ⟨hs, hj⟩ := pendingOf_cleared hp
    exact ⟨hs, rfl, fun hji => absurd hji hj⟩
  by_cases hkind : (s.stagedOf i).kind = 0
  · rw [applyCommit_retiring_eq ((commitKind_eq _ _).1 hkind)]
    exact h.abandonLine rfl (fun q => by simp) (Line.retired_ok _) (fun hl => Bool.noConfusion hl) (cleared _)
  · have hd := inForce_of_imageFault image hkind
    have hclash := ((clashCheck_eq_none_iff s i _).mp fits).resolve_left (by simpa [Image.isNone] using hkind)
    by_cases hk : (s.line i).KeptBy (s.stagedOf i)
    · exact applyCommit_soft_tableOk h hd hk hclash
    · rw [applyCommit_hard_eq ((commitKind_eq _ _).2.2 hkind hk)]
      refine h.abandonLine rfl (fun q => by simp) ?_ (fun _ => hclash) (cleared _)
      exact Line.emptied_ok
        (l := { (s.line i).committed .appliedHard with active := s.stagedOf i, state := .live }) rfl hd

theorem setOutcome_tableOk (h : s.TableOk) (outcome : CommitOutcome) : (setOutcome i outcome s).TableOk :=
  h.retouch (i := i) (fun j => by rw [setOutcome, State.line_setLine]) ((h.lines i).withOutcome outcome) rfl rfl rfl
    (fun j tr hp => ⟨hp, rfl⟩) rfl (fun q => by cases q <;> rfl) (State.noNewHeld_of_lists fun q => by simp)

theorem clearPending_tableOk (h : s.TableOk) : (s.setPending i none).TableOk :=
  h.retouch (i := i) (l := s.line i) (fun j => by by_cases hj : j = i <;> simp [hj]) (h.lines i) rfl rfl rfl
    (fun j tr hp => ⟨(pendingOf_cleared hp).1, rfl⟩) rfl (fun q => by simp) (State.noNewHeld_of_lists fun q => by simp)

theorem cancelPending_tableOk (h : s.TableOk) : (cancelPending i s).TableOk := by
  unfold cancelPending
  split
  · exact setOutcome_tableOk (clearPending_tableOk h) _
  · exact h

/-- A due commit keeps the table: its image has passed ARM's checks, which the pending commit has kept. -/
theorem dueCommit_tableOk (h : s.TableOk) {tr : Trigger} (hp : s.pendingOf i = some tr) :
    (dueCommit source i s).TableOk := by
  unfold dueCommit
  split
  · exact (setOutcome_tableOk (clearPending_tableOk h) _).congr rfl rfl (State.noNewHeld_of_lists fun q => rfl)
  · rename_i fits
    exact applyCommit_tableOk h (h.pending i tr hp).1 fits

end

theorem markEvent_tableOk {s : State} (h : s.TableOk) : (markEvent s).TableOk := by
  refine markEvent_keeps (P := State.TableOk) (fun s h => ?_) (fun i s hp h => dueCommit_tableOk h hp) h
  exact ⟨h.lines, h.spans, h.pending, h.urgency, h.held.congr (State.noNewHeld_of_lists fun q => by cases q <;> rfl) rfl
    (fun _ => rfl) (fun _ => rfl) fun _ => rfl⟩

theorem execTake_tableOk {s t : State} (h : s.TableOk) (hq : s.QueuesOk) (hs : execTake s = .next t) : t.TableOk := by
  obtain hn | ⟨p, e, ht, hn⟩ := execTake_cases s <;> rw [hn] at hs <;> cases hs
  · exact h
  · obtain ⟨u, i, ⟨l, released, b, hmove, hleaves, hlines⟩, htu⟩ := takeEntry_ends s p e
    generalize takeEntry p e s = t at htu ⊢
    have hu : u.TableOk := hmove.tableOk hlines h hq ht hleaves
    obtain rfl | ⟨hp, rfl⟩ := htu
    · exact hu
    · exact dueCommit_tableOk hu hp

end Sys2Proof.Machine
end

section
namespace Sys2Proof.Machine

/-! ### The table over the link's commands and the other commands -/

theorem setStaged_tableOk {s : State} {i : LineNo} (h : s.TableOk) (hp : s.pendingOf i = none) (d : Image) :
    (s.setStaged i d).TableOk := by
  refine ⟨h.lines, h.spans, fun j tr hj => ?_, h.urgency, h.held.congr (State.noNewHeld_of_lists fun q => by simp) rfl
    (fun _ => rfl) (fun _ => rfl) fun _ => rfl⟩
  have hne : j ≠ i := by
    rintro rfl
    exact absurd (hp.symm.trans hj) (by simp)
  rw [State.stagedOf_setStaged_ne s d hne]
  exact h.pending j tr hj

theorem armLine_tableOk {s t : State} {i : LineNo} (h : s.TableOk) (ht : ArmLeaves i s t) : t.TableOk := by
  cases ht with
  | unchanged => exact h
  | refuses => exact setOutcome_tableOk h _
  | applies image fits => exact applyCommit_tableOk h image fits
  | pends tr image allowed =>
    refine ⟨h.lines, h.spans, fun j tr' hj => ?_, h.urgency,
      h.held.congr (State.noNewHeld_of_lists fun q => by simp) rfl (fun _ => rfl) (fun _ => rfl) fun _ => rfl⟩
    rw [State.pendingOf_setPending] at hj
    split at hj
    · rename_i hji
      subst hji
      cases hj
      exact ⟨image, allowed⟩
    · exact h.pending j tr' hj

theorem flushLine_tableOk {s : State} (i : LineNo) (args : List Byte) (h : s.TableOk) :
    (flushLine i args s).1.TableOk := by
  cases hl : (s.line i).isLive with
  | false => rwa [flushLine_idle hl]
  | true =>
    rw [flushLine_live hl]
    exact h.abandonLine rfl (fun _ => rfl) (h.lines i).emptied h.spans.noClash fun j tr hp => ⟨hp, rfl, fun _ hl => hl⟩

/-- In ENGAGED mode a held entry is as in any mode: it is held in no other. -/
theorem setMode_engaged_tableOk {s : State} (h : s.TableOk) : (setMode .engaged s).TableOk := by
  refine ⟨h.lines, h.spans, h.pending, h.urgency, fun q x hx => ?_⟩
  have hx' := h.held q x (by simpa using hx)
  rw [Entry.heldOk_iff] at hx' ⊢
  exact fun hheld => ⟨rfl, (hx' hheld).2⟩

/-- DISENGAGE ends every held entry, so none is left for TRANSPARENT mode. -/
theorem disengage_tableOk {s : State} (h : s.TableOk) (source : Source) (cause : Cause) :
    (abandon source cause (fun _ => true) (setMode .transparent s)).TableOk := by
  refine ⟨h.lines, h.spans, h.pending, h.urgency, fun q x hx => ?_⟩
  rw [intake_abandon, endHeld_openList] at hx
  obtain ⟨y, -, rfl⟩ := List.mem_map.mp hx
  exact Entry.heldOk_endEntry fun hw => Bool.noConfusion hw

/-- A table whose lines have all just been emptied, with no commit pending and no entry held. -/
theorem tableOk_of_emptied {s t : State} (h : s.TableOk) (hok : t.LinesOk) (hpend : ∀ i, t.pendingOf i = none)
    (hspans : ∀ i, (t.line i).isLive = true → (s.line i).isLive = true ∧ (t.line i).active = (s.line i).active)
    (hurg : t.UrgencyOk) (hheld : ∀ q, ∀ x ∈ (t.intake q).openList, Entry.isHeld x = false) : t.TableOk := by
  refine ⟨hok, fun i j hij hi hj => ?_, fun i tr hp => ?_, hurg, fun q x hx => Entry.heldOk_of_not_held (hheld q x hx)⟩
  · obtain ⟨hi, hai⟩ := hspans i hi
    obtain ⟨hj, haj⟩ := hspans j hj
    rw [hai, haj]
    exact h.spans i j hij hi hj
  · rw [hpend] at hp
    cases hp

theorem clearPart_tableOk {s : State} (args : List Byte) (h : s.TableOk) : (clearPart args s).1.TableOk := by
  have lines := clearLine_empties.allLines_line s
  have pending := clearLine_empties.allLines_pendingOf s
  rw [clearPart_fst]
  generalize allLines.foldl clearLine s = u at lines pending ⊢
  refine tableOk_of_emptied h (fun i => ?_) pending (fun i hl => ?_) (recomputeUrgency_ok _) fun q x hx => ?_
  · rw [recomputeUrgency_line]
    exact lines i ▸ Line.retired_ok _
  · exact absurd ((congrArg Line.isLive (lines i)).symm.trans hl) (by simp [Line.retired, Line.isLive])
  · have ended : x ∈ (endHeld (fun _ => true) (s.intake q)).openList := by
      cases q <;> exact hx
    rw [endHeld_openList] at ended
    obtain ⟨y, -, rfl⟩ := List.mem_map.mp ended
    exact Bool.eq_false_iff.mpr fun hh => Bool.noConfusion ((endEntry_isHeld _ y).mp hh).2

theorem linkAct_tableOk (c : LinkCode) (i : LineNo) (args : List Byte) {s : State} (h : s.TableOk) :
    (linkAct c i args s).1.TableOk := by
  cases c with
  | result | identify | readStaged | readActive | queryLine | queryPart => exact h
  | stage =>
    simp only [linkAct, stageLine]
    split
    · exact h
    · rename_i hp
      split
      · exact h
      · exact setStaged_tableOk h (Option.not_isSome_iff_eq_none.mp hp) _
  | arm => exact armLine_tableOk h (armLine_leaves i args s).1
  | disarm =>
    simp only [linkAct, disarmLine]
    split
    · exact cancelPending_tableOk h
    · exact h
  | mark =>
    simp only [linkAct, markPart]
    exact markEvent_tableOk h
  | flush => exact flushLine_tableOk i args h
  | engage => exact setMode_engaged_tableOk h
  | disengage =>
    simp only [linkAct, disengagePart]
    exact disengage_tableOk h .link .disengage
  | takeIncident =>
    simp only [linkAct, takeIncidentPart]
    split
    · exact h
    · exact h.congr rfl rfl (State.noNewHeld_of_lists fun q => by cases q <;> rfl)
  | setEnables | clearOverflow => exact h.congr rfl rfl (State.noNewHeld_of_lists fun q => by cases q <;> rfl)
  | clear =>
    simp only [linkAct]
    exact clearPart_tableOk args h

theorem tableOk_keptByFrames : KeptByFrames State.TableOk where
  shift bytes s _ h := h.congr rfl rfl (State.noNewHeld_of_lists fun q => by simp)
  status status s _ h := h.congr rfl rfl (State.noNewHeld_of_lists fun q => by simp)
  act c i args s _ h := (linkAct_tableOk c i args h).congr rfl rfl (State.noNewHeld_of_lists fun q => by simp [reply])

theorem setSuspect_tableOk {s : State} (line : Option LineNo) (h : s.TableOk) : (setSuspect line s).TableOk := by
  obtain hs | ⟨i, hl, hs⟩ := setSuspect_cases line s <;> rw [hs]
  · exact h
  · exact h.retouch (i := i) (fun j => State.line_setLine s i j _) ((h.lines i).withSuspect hl) rfl rfl rfl
      (fun j tr hp => ⟨hp, rfl⟩) rfl (fun q => by cases q <;> rfl) (State.noNewHeld_of_lists fun q => by simp)

theorem noNewHeld_answerEntry (s : State) (p : Port) (e : Entry) (status : Status) (data : Data) :
    s.NoNewHeld (answerEntry p e status data s) := by
  intro q x hx hheld
  rw [intake_answerEntry] at hx
  obtain ⟨y, hy, rfl⟩ := List.mem_map.mp hx
  split at hheld
  · exact absurd hheld (by simp [Entry.isHeld, Entry.answered])
  · rename_i hne
    rwa [if_neg hne]

theorem answerOrigin_tableOk {s : State} (t : Transaction) (o : Origin) (status : Status) (data : Data)
    (h : s.TableOk) : (answerOrigin t o status data s).TableOk := by
  unfold answerOrigin
  split
  · exact h
  · rename_i e _
    have answered : (answerEntry o.port e status data s).TableOk :=
      h.congr (by simp) (by simp) (noNewHeld_answerEntry s o.port e status data)
    cases status with
    | okay => exact answered
    | error =>
      exact setSuspect_tableOk t.line (answered.congr rfl rfl (State.noNewHeld_of_lists fun q => by simp))

theorem noNewHeld_setIntake {s : State} {p : Port} {it : Intake}
    (h : ∀ x ∈ it.openList, Entry.isHeld x = true → x ∈ (s.intake p).openList) : s.NoNewHeld (s.setIntake p it) := by
  intro q x hx hheld
  rw [State.intake_setIntake] at hx
  split at hx
  · rename_i hq
    exact hq ▸ h x hx hheld
  · exact hx

theorem noNewHeld_expire (p : Port) (s : State) : s.NoNewHeld (expire p s) := by
  intro q x hx hheld
  rw [intake_expire] at hx
  split at hx
  · rename_i hq
    have ended : s.NoNewHeld (s.setIntake p (endHeld (fun _ => true) (s.intake p))) := by
      refine noNewHeld_setIntake fun y hy hh => ?_
      rw [endHeld_openList] at hy
      obtain ⟨z, -, rfl⟩ := List.mem_map.mp hy
      exact Bool.noConfusion ((endEntry_isHeld _ z).mp hh).2
    refine ended q x ?_ hheld
    rw [hq, State.intake_setIntake_self]
    exact hx
  · exact hx

theorem execSystemReset_tableOk {s t : State} (h : s.TableOk) (hs : execSystemReset s = .next t) : t.TableOk := by
  obtain ⟨held, asserted⟩ := systemResetEmptiesEveryLine s
  cases hr : s.sysrstnLow with
  | true =>
    rw [← exec_systemReset, held hr] at hs
    cases hs
    exact h
  | false =>
    obtain ⟨u, hu, lines, intakes, engineEq, -⟩ := asserted hr
    rw [← exec_systemReset, hu] at hs
    cases hs
    have line : ∀ i, t.line i = ((s.line i).cancelledWith (s.pendingOf i)).emptied := fun i => (lines i).1
    refine tableOk_of_emptied h (fun i => ?_) (fun i => (lines i).2) (fun i hl => ?_)
      ⟨congrArg LineEngine.urgentA engineEq, congrArg LineEngine.urgentB engineEq⟩ fun q x hx => ?_
    · rw [line]
      exact ((h.lines i).withOutcome _).emptied
    · rw [line] at hl ⊢
      exact ⟨hl, rfl⟩
    · rw [intakes] at hx
      cases hx

theorem State.Initial.line {s : State} (h : s.Initial) (i : LineNo) : s.line i = Line.initial := by
  obtain ⟨-, -, he, -⟩ := h
  rw [State.line, he]
  exact initial_line i

theorem State.Initial.pendingOf {s : State} (h : s.Initial) (i : LineNo) : s.pendingOf i = none := by
  obtain ⟨-, -, -, hc, -⟩ := h
  rw [State.pendingOf, hc]
  simp [CommitUnit.initial]

theorem State.Initial.urgencyOf {s : State} (h : s.Initial) (p : Port) : urgencyOf s.engine.lines p = false :=
  urgencyOf_eq_false fun i => by rw [h.line]; rfl

theorem State.Initial.tableOk {s : State} (h : s.Initial) : s.TableOk := by
  refine ⟨fun i => ?_, fun i j _ hi => ?_, fun i tr hp => ?_, ?_, fun q x hx => ?_⟩
  · rw [h.line]
    exact (Line.ok_idle_iff (l := Line.initial) rfl).mpr ⟨rfl, rfl, rfl, rfl, rfl, rfl, rfl⟩
  · rw [h.line] at hi
    cases hi
  · rw [h.pendingOf] at hp
    cases hp
  · obtain ⟨-, -, he, -⟩ := id h
    have hA := h.urgencyOf .A
    have hB := h.urgencyOf .B
    refine ⟨?_, ?_⟩
    · rw [hA, he]
      rfl
    · rw [hB, he]
      rfl
  · rw [h.intake] at hx
    cases hx

/-- Every command that is no frame of the link keeps the table. -/
theorem block_tableOk (c : Instr) (s t : State) (hc : Instr.linkCommand c = none) (h : s.TableOk) (hq : s.QueuesOk)
    (hs : exec c s = .next t) : t.TableOk := by
  cases c with
  | take => exact execTake_tableOk h hq hs
  | systemReset => exact execSystemReset_tableOk h hs
  | memoryAnswer status data =>
    cases hs
    split
    · exact h
    · rename_i x more hm
      have dropped : ({ s with memQueue := more } : State).TableOk :=
        h.congr rfl rfl (State.noNewHeld_of_lists fun q => by cases q <;> rfl)
      dsimp only
      split
      · exact dropped
      · exact answerOrigin_tableOk _ _ _ _ dropped
  | markEdge =>
    cases hs
    split
    · exact h
    · exact markEvent_tableOk h
  | requestAcceptance p access addr size =>
    cases hs
    split
    · exact h
    · refine h.congr (by simp) (by simp) (noNewHeld_setIntake fun x hx hheld => ?_)
      rcases List.mem_append.mp hx with hx | hx
      · exact hx
      · rw [List.mem_singleton.mp hx] at hheld
        exact absurd hheld (by simp [Entry.isHeld, acceptedEntry])
  | answerDelivery p =>
    cases hs
    refine h.congr (by simp) (by simp) (noNewHeld_setIntake fun x hx _ => ?_)
    obtain hd | ⟨e, more, hl, -, hd⟩ := deliver_cases (s.intake p) <;> rw [hd] at hx
    · exact hx
    · rw [hl]
      exact List.mem_cons_of_mem _ hx
  | expiry p =>
    cases hs
    split
    · exact h
    · split
      · exact h.congr (by cases p <;> rfl) (by cases p <;> rfl) (noNewHeld_expire p s)
      · exact h
  | incidentArrival source =>
    cases hs
    split
    · exact h
    · exact h.congr rfl rfl (State.noNewHeld_of_lists fun q => by cases q <;> rfl)
  | presentTransaction | tick | systemResetRelease | powerOnResetRelease =>
    cases hs
    exact h.congr rfl rfl (State.noNewHeld_of_lists fun q => by cases q <;> rfl)
  | badframe bytes =>
    cases hs
    exact tableOk_keptByFrames.linkFrame bytes h
  | powerOnReset =>
    cases hs
    exact State.Initial.tableOk ⟨rfl, rfl, rfl, rfl, rfl, rfl, rfl, rfl⟩
  | _ => cases hc

end Sys2Proof.Machine
end

section
namespace Sys2Proof.Machine

/-! ### The incident unit -/

/-- A later record's sequence number follows that of an earlier one (R144). -/
def Record.follows (a b : Record) : Prop := b.sequence = a.sequence + 1

theorem consecutive_iff (records : List Record) : consecutive records ↔ records.IsChain Record.follows := by
  induction records with
  | nil => simp [consecutive]
  | cons a more ih =>
    cases more with
    | nil => simp [consecutive]
    | cons b rest => rw [List.isChain_cons_cons, ← ih, consecutive, Record.follows]

section
variable {u : IncidentUnit}

theorem IncidentUnit.Ok.append (h : u.Ok) (x : Incident) (room : u.records.length < Config.incidentPlaces) :
    (u.append x).Ok := by
  obtain ⟨-, hrepeat, hseq, hcounter, -⟩ := h
  refine ⟨?_, fun r hr => ?_, ?_, fun r hr => ?_, rfl⟩
  · simpa [IncidentUnit.append, refreshAlert] using room
  · rcases List.mem_append.mp hr with hr | hr
    · exact hrepeat r hr
    · rw [List.mem_singleton.mp hr]
      exact ⟨Nat.le_refl 1, (by decide : 1 ≤ Config.repeatMax)⟩
  · rw [consecutive_iff] at hseq ⊢
    refine List.isChain_append.mpr ⟨hseq, List.isChain_singleton _, fun a ha b hb => ?_⟩
    cases hb
    exact hcounter a ha
  · cases (getLast?_concat u.records _).symm.trans hr
    rfl

theorem IncidentUnit.Ok.coalesce (h : u.Ok) {newest : Record} (hl : u.records.getLast? = some newest)
    (room : newest.occurrences < Config.repeatMax) : (u.coalesce newest).Ok := by
  obtain ⟨hlen, hrepeat, hseq, hcounter, halert⟩ := h
  obtain ⟨front, hfront⟩ := List.getLast?_eq_some_iff.mp hl
  have records : (u.coalesce newest).records = front ++ [{ newest with occurrences := newest.occurrences + 1 }] := by
    simp [IncidentUnit.coalesce, hfront]
  rw [hfront] at hlen hrepeat hseq
  refine ⟨?_, fun r hr => ?_, ?_, fun r hr => ?_, ?_⟩
  · rw [records]
    simpa using hlen
  · rw [records] at hr
    rcases List.mem_append.mp hr with hr | hr
    · exact hrepeat r (List.mem_append_left _ hr)
    · rw [List.mem_singleton.mp hr]
      exact ⟨Nat.le_add_left 1 _, room⟩
  · rw [records]
    rw [consecutive_iff] at hseq ⊢
    obtain ⟨hchain, -, hlast⟩ := List.isChain_append.mp hseq
    refine List.isChain_append.mpr ⟨hchain, List.isChain_singleton _, fun a ha b hb => ?_⟩
    cases hb
    exact hlast a ha newest rfl
  · rw [records, getLast?_concat] at hr
    cases hr
    exact hcounter newest hl
  · show u.alertLow = alertOf (u.coalesce newest)
    rw [halert, alertOf, alertOf, records, hfront]
    cases front <;> rfl

theorem IncidentUnit.Ok.deal (h : u.Ok) (x : Incident) : (u.deal x).Ok := by
  obtain ⟨hd, -⟩ | ⟨r, hl, ht, hd⟩ | ⟨room, hd⟩ | ⟨-, hd⟩ := deal_cases u x <;> rw [hd]
  · exact h
  · exact h.coalesce hl (by simpa using (Bool.and_eq_true_iff.mp ht).2)
  · exact h.append x room
  · obtain ⟨hlen, hrepeat, hseq, hcounter, -⟩ := h
    exact ⟨hlen, hrepeat, hseq, hcounter, rfl⟩

theorem IncidentUnit.Ok.takeOldest (h : u.Ok) {r : Record} {more : List Record} (hr : u.records = r :: more) :
    (refreshAlert { u with records := more }).Ok := by
  obtain ⟨hlen, hrepeat, hseq, hcounter, -⟩ := h
  rw [hr] at hlen hrepeat hseq hcounter
  refine ⟨Nat.le_of_succ_le hlen, fun x hx => hrepeat x (List.mem_cons_of_mem _ hx), ?_, fun x hx => ?_, rfl⟩
  · exact (consecutive_iff _).mpr ((consecutive_iff _).mp hseq).tail
  · refine hcounter x ?_
    rw [List.getLast?_cons, show more.getLast? = some x from hx]
    rfl

theorem IncidentUnit.Ok.cleared (u : IncidentUnit) : u.cleared.Ok := by
  refine ⟨Nat.zero_le _, fun _ hr => absurd hr List.not_mem_nil, trivial, fun r hr => ?_, rfl⟩
  cases (List.getLast?_nil (α := Record)).symm.trans hr

theorem IncidentUnit.Ok.initial : IncidentUnit.initial.Ok := IncidentUnit.Ok.cleared IncidentUnit.initial

end

/-! ### The incident unit and the held result over the link's commands -/

/-- The incident unit and the held result are as the manual says. -/
structure State.UnitsOk (s : State) : Prop where
  incidents : s.incidents.Ok
  held : s.link.held.Ok

theorem ArmLeaves.outside {i : LineNo} {s t : State} (h : ArmLeaves i s t) : SameOutside s t := by
  cases h with
  | unchanged | pends | refuses => exact ⟨rfl, rfl, rfl, rfl⟩
  | applies => exact (applyCommit_leaves .commitUnit i s).outside

theorem markEvent_outside (s : State) : SameOutside s (markEvent s) :=
  markEvent_keeps (P := SameOutside s) (fun _ h => h.trans ⟨rfl, rfl, rfl, rfl⟩)
    (fun i u _ h => h.trans (dueCommit_leaves .commitUnit i u).outside) ⟨rfl, rfl, rfl, rfl⟩

theorem clearPart_outside (args : List Byte) (s : State) :
    (clearPart args s).1.incidents = s.incidents.cleared ∧ (clearPart args s).1.porstnLow = s.porstnLow := by
  rw [clearPart_fst, clearLine_empties.foldl_recordsOnly allLines s]
  exact ⟨rfl, rfl⟩

/-- Only the commands of the incident unit change it, and no command of the link touches PORSTN. -/
theorem linkAct_outside (c : LinkCode) (i : LineNo) (args : List Byte) (s : State) :
    SameOutside s (linkAct c i args s).1
      ∨ (s.incidents.Ok → (linkAct c i args s).1.incidents.Ok)
        ∧ (linkAct c i args s).1.porstnLow = s.porstnLow := by
  cases c with
  | result | identify | readStaged | readActive | queryLine | queryPart | engage => exact .inl ⟨rfl, rfl, rfl, rfl⟩
  | stage =>
    simp only [linkAct, stageLine]
    split
    · exact .inl ⟨rfl, rfl, rfl, rfl⟩
    · split <;> exact .inl ⟨rfl, rfl, rfl, rfl⟩
  | arm => exact .inl (armLine_leaves i args s).1.outside
  | disarm =>
    simp only [linkAct, disarmLine]
    split
    · exact .inl (cancelPending_leaves i s).outside
    · exact .inl ⟨rfl, rfl, rfl, rfl⟩
  | mark =>
    simp only [linkAct, markPart]
    exact .inl (markEvent_outside s)
  | flush =>
    simp only [linkAct, flushLine]
    split <;> exact .inl ⟨rfl, rfl, rfl, rfl⟩
  | disengage =>
    simp only [linkAct, disengagePart]
    exact .inl ⟨rfl, rfl, rfl, rfl⟩
  | takeIncident =>
    simp only [linkAct, takeIncidentPart]
    split
    · exact .inl ⟨rfl, rfl, rfl, rfl⟩
    · rename_i r more hr
      exact .inr ⟨fun h => h.takeOldest hr, rfl⟩
  | setEnables => exact .inr ⟨id, rfl⟩
  | clearOverflow => exact .inr ⟨fun ⟨hlen, hrepeat, hseq, hcounter, _⟩ => ⟨hlen, hrepeat, hseq, hcounter, rfl⟩, rfl⟩
  | clear =>
    obtain ⟨hi, hp⟩ := clearPart_outside args s
    exact .inr ⟨fun _ => hi ▸ IncidentUnit.Ok.cleared _, hp⟩

theorem linkAct_porstnLow (c : LinkCode) (i : LineNo) (args : List Byte) (s : State) :
    (linkAct c i args s).1.porstnLow = s.porstnLow := by
  obtain h | ⟨-, h⟩ := linkAct_outside c i args s
  · exact h.porstnLow
  · exact h

theorem leBytes_length (n v : Nat) : (leBytes n v).length = n := by
  induction n generalizing v with
  | zero => rfl
  | succ n ih => rw [leBytes, List.length_cons, ih]

theorem image_length (r : Record) : r.image.length = 12 := by
  have detail : (Detail.bytes r.incident.detail).length = 3 := by
    cases r.incident.detail with
    | underrun => exact leBytes_length 3 _
    | refused reason => cases reason <;> rfl
    | _ => rfl
  simp [Record.image, leBytes_length, detail]

theorem queryLineBytes_length (s : State) (i : LineNo) : (queryLineBytes s i).length = 16 := by
  have outcome : (CommitOutcome.bytes (s.line i).lastOutcome).length = 3 := by
    cases (s.line i).lastOutcome with
    | refused reason => cases reason <;> rfl
    | _ => rfl
  simp [queryLineBytes, leBytes_length, outcome]

/-- Every reply fits the held result: its bytes are 32 at most, and a status other than OK brings none, but for ARM's
INVALID. -/
theorem linkAct_held_ok (c : LinkCode) (i : LineNo) (args : List Byte) {s : State} (h : s.link.held.Ok) :
    (linkAct c i args s).2.Ok := by
  cases c with
  | result => exact h
  | identify => exact okWith_ok (by decide)
  | readStaged | readActive => exact okWith_ok (by simp [Image.toList])
  | queryLine => exact okWith_ok (by simp [queryLineBytes_length])
  | queryPart => exact okWith_ok (by simp [queryPartBytes, leBytes_length])
  | arm => exact (armLine_leaves i args s).2
  | stage =>
    simp only [linkAct, stageLine]
    split
    · exact statusOnly_ok _
    · split
      · exact statusOnly_ok _
      · exact okWith_ok (Nat.zero_le _)
  | disarm =>
    simp only [linkAct, disarmLine]
    split
    · exact okWith_ok (Nat.zero_le _)
    · exact statusOnly_ok _
  | flush =>
    simp only [linkAct, flushLine]
    split
    · exact okWith_ok (Nat.zero_le _)
    · exact statusOnly_ok _
  | takeIncident =>
    simp only [linkAct, takeIncidentPart]
    split
    · exact statusOnly_ok _
    · rename_i r more _
      exact okWith_ok (by rw [image_length]; decide)
  | mark | engage | disengage | setEnables | clearOverflow | clear =>
    simp only [linkAct, markPart, engagePart, disengagePart, setEnablesPart, clearOverflowPart, clearPart]
    exact okWith_ok (Nat.zero_le _)

theorem unitsOk_keptByFrames : KeptByFrames State.UnitsOk where
  shift _ _ _ h := ⟨h.incidents, h.held⟩
  status status _ _ h := ⟨h.incidents, statusOnly_ok status⟩
  act c i args s _ h := by
    refine ⟨?_, linkAct_held_ok c i args h.held⟩
    show (linkAct c i args s).1.incidents.Ok
    obtain hs | ⟨hi, -⟩ := linkAct_outside c i args s
    · exact hs.incidents ▸ h.incidents
    · exact hi h.incidents

/-! ### The incident unit, the link and PORSTN over the other commands -/

/-- The commands that are neither frames of the link nor a power-on reset leave the link alone, bring the incident unit
at most an incident to deal with, and never lower PORSTN. -/
structure BlockLeaves (s t : State) : Prop where
  incidents : t.incidents = s.incidents ∨ ∃ x, t.incidents = s.incidents.deal x
  link : t.link = s.link
  porstnLow : t.porstnLow = true → s.porstnLow = true

theorem SameOutside.block {s t : State} (h : SameOutside s t) : BlockLeaves s t :=
  ⟨.inl h.incidents, h.link, fun hp => h.porstnLow ▸ hp⟩

theorem answerOrigin_outside (x : Transaction) (o : Origin) (status : Status) (data : Data) (s : State) :
    SameOutside s (answerOrigin x o status data s) := by
  have answered : ∀ e, SameOutside s (answerEntry o.port e status data s) := fun e =>
    ⟨by simp, by simp, by simp, by simp⟩
  unfold answerOrigin
  split
  · exact ⟨rfl, rfl, rfl, rfl⟩
  · rename_i e _
    cases status with
    | okay => exact answered e
    | error =>
      have handed : SameOutside s
          (hand .memoryPort (memfaultIncident x o.port e) (answerEntry o.port e .error data s)) :=
        (answered e).trans ⟨rfl, rfl, rfl, rfl⟩
      exact handed.trans (setSuspect_outside x.line _)

theorem execTake_outside {s t : State} (hs : execTake s = .next t) : SameOutside s t := by
  obtain hn | ⟨p, e, -, hn⟩ := execTake_cases s <;> rw [hn] at hs <;> cases hs
  · exact ⟨rfl, rfl, rfl, rfl⟩
  · obtain ⟨u, i, ⟨l, other, b, -, hleaves, -⟩, htu | ⟨-, htu⟩⟩ := takeEntry_ends s p e <;> rw [htu]
    · exact hleaves.outside
    · exact hleaves.outside.trans (dueCommit_leaves .lineEngine i u).outside

theorem execSystemReset_leaves {s t : State} (hs : execSystemReset s = .next t) : BlockLeaves s t := by
  obtain ⟨held, asserted⟩ := systemResetEmptiesEveryLine s
  cases hr : s.sysrstnLow with
  | true =>
    rw [← exec_systemReset, held hr] at hs
    cases hs
    exact ⟨.inl rfl, rfl, id⟩
  | false =>
    obtain ⟨u, hu, -, -, -, -, -, frame⟩ := asserted hr
    rw [← exec_systemReset, hu] at hs
    cases hs
    rw [frame]
    exact ⟨.inl rfl, rfl, id⟩

theorem block_leaves (c : Instr) (s t : State) (hc : Instr.linkCommand c = none) (hbad : ∀ bytes, c ≠ .badframe bytes)
    (hpor : c ≠ .powerOnReset) (hs : exec c s = .next t) : BlockLeaves s t := by
  cases c with
  | take => exact (execTake_outside hs).block
  | systemReset => exact execSystemReset_leaves hs
  | memoryAnswer status data =>
    cases hs
    refine SameOutside.block ?_
    split
    · exact ⟨rfl, rfl, rfl, rfl⟩
    · rename_i more _
      have dropped : SameOutside s { s with memQueue := more } := ⟨rfl, rfl, rfl, rfl⟩
      dsimp only
      split
      · exact dropped
      · exact dropped.trans (answerOrigin_outside ..)
  | markEdge =>
    cases hs
    split
    · exact ⟨.inl rfl, rfl, id⟩
    · exact (markEvent_outside s).block
  | requestAcceptance p =>
    cases hs
    split
    · exact ⟨.inl rfl, rfl, id⟩
    · cases p <;> exact ⟨.inl rfl, rfl, id⟩
  | answerDelivery p =>
    cases hs
    cases p <;> exact ⟨.inl rfl, rfl, id⟩
  | expiry p =>
    cases hs
    split
    · exact ⟨.inl rfl, rfl, id⟩
    · split
      · exact (expire_outside p s).2.block
      · exact ⟨.inl rfl, rfl, id⟩
  | incidentArrival source =>
    cases hs
    split
    · exact ⟨.inl rfl, rfl, id⟩
    · exact ⟨.inr ⟨_, rfl⟩, rfl, id⟩
  | presentTransaction | tick | systemResetRelease =>
    cases hs
    exact ⟨.inl rfl, rfl, id⟩
  | powerOnResetRelease =>
    cases hs
    exact ⟨.inl rfl, rfl, fun hp => Bool.noConfusion hp⟩
  | badframe bytes => exact absurd rfl (hbad bytes)
  | powerOnReset => exact absurd rfl hpor
  | _ => cases hc

theorem BlockLeaves.unitsOk {s t : State} (h : BlockLeaves s t) (hu : s.UnitsOk) : t.UnitsOk := by
  refine ⟨?_, h.link ▸ hu.held⟩
  obtain hi | ⟨x, hi⟩ := h.incidents <;> rw [hi]
  · exact hu.incidents
  · exact hu.incidents.deal x

theorem State.Initial.unitsOk {s : State} (h : s.Initial) : s.UnitsOk := by
  obtain ⟨-, -, -, -, -, hi, -, hl⟩ := h
  refine ⟨hi ▸ IncidentUnit.Ok.initial, ?_⟩
  rw [hl]
  exact okWith_ok (Nat.zero_le _)

end Sys2Proof.Machine
end

section
namespace Sys2Proof.Machine

/-! ### PORSTN held low -/

theorem execSystemReset_initial {s t : State} (h : s.Initial) (hs : execSystemReset s = .next t) : t.Initial := by
  obtain ⟨held, asserted⟩ := systemResetEmptiesEveryLine s
  cases hr : s.sysrstnLow with
  | true =>
    rw [← exec_systemReset, held hr] at hs
    cases hs
    exact h
  | false =>
    obtain ⟨u, hu, lines, intakes, engineEq, commitEq, memory, frame⟩ := asserted hr
    rw [← exec_systemReset, hu] at hs
    cases hs
    have table : t.engine.lines = LineEngine.initial.lines := by
      refine Vector.ext fun k hk => ?_
      have line := (lines ⟨k, hk⟩).1
      rw [h.line, h.pendingOf] at line
      exact line.trans (initial_line ⟨k, hk⟩).symm
    have pending : t.commit.pendingCommit = CommitUnit.initial.pendingCommit := by
      refine Vector.ext fun k hk => ?_
      exact ((lines ⟨k, hk⟩).2).trans (by simp [CommitUnit.initial])
    obtain ⟨hA, hB, he, hc, hm, hi, hh, hl⟩ := id h
    have urgent : ∀ p, urgencyOf t.engine.lines p = false := fun p => by
      rw [table, ← he]
      exact h.urgencyOf p
    rw [frame]
    refine ⟨?_, ?_, ?_, ?_, ?_, hi, hh, hl⟩
    · exact (intakes .A).trans (by rw [h.intake]; rfl)
    · exact (intakes .B).trans (by rw [h.intake]; rfl)
    · rw [engineEq, urgent, urgent, table, he]
      rfl
    · rw [commitEq, pending, hc]
    · rw [memory, hm]
      rfl

/-- While PORSTN is low no command but its release finds anything to do, and a power-on reset starts that time. -/
theorem block_initial (c : Instr) (s t : State) (hc : Instr.linkCommand c = none)
    (hbad : ∀ bytes, c ≠ .badframe bytes) (h : s.Initial) (hp : s.porstnLow = true) (hs : exec c s = .next t) :
    t.Initial := by
  have hreset : s.inReset = true := by simp [State.inReset, hp]
  obtain ⟨hA, hB, he, hcu, hm, hi, hh, hl⟩ := id h
  cases c with
  | systemReset => exact execSystemReset_initial h hs
  | powerOnReset =>
    cases hs
    exact ⟨rfl, rfl, rfl, rfl, rfl, rfl, rfl, rfl⟩
  | take =>
    obtain hn | ⟨p, e, ht, -⟩ := execTake_cases s
    · cases hn.symm.trans hs
      exact h
    · exact absurd hreset (by simp [ht.1])
  | memoryAnswer status data =>
    cases hs
    rw [hm]
    exact h
  | markEdge =>
    cases hs
    rw [if_pos hreset]
    exact h
  | requestAcceptance p access addr size =>
    cases hs
    rw [if_pos (.inl hreset)]
    exact h
  | answerDelivery p =>
    cases hs
    have kept : (s.intake p).deliver = s.intake p := by
      rw [h.intake]
      rfl
    rw [kept]
    cases p <;> exact h
  | expiry p =>
    cases hs
    rw [h.intake]
    exact h
  | incidentArrival source =>
    cases hs
    rw [hh]
    exact h
  | presentTransaction =>
    cases hs
    exact ⟨hA, hB, he, hcu, by rw [hm]; rfl, hi, hh, hl⟩
  | tick | systemResetRelease | powerOnResetRelease =>
    cases hs
    exact h
  | badframe bytes => exact absurd rfl (hbad bytes)
  | _ => cases hc

/-! ### The whole invariant -/

/-- The invariant in the parts that are kept each on its own. -/
theorem State.inv_iff (s : State) :
    s.Inv ↔ s.TableOk ∧ s.QueuesOk ∧ s.UnitsOk ∧ (s.porstnLow = true → s.Initial) := by
  constructor
  · rintro ⟨hlines, hspans, hpend, hurg, hheld, hq, hi, hl, hp⟩
    exact ⟨⟨hlines, hspans, hpend, hurg, hheld⟩, hq, ⟨hi, hl⟩, hp⟩
  · rintro ⟨⟨hlines, hspans, hpend, hurg, hheld⟩, hq, ⟨hi, hl⟩, hp⟩
    exact ⟨hlines, hspans, hpend, hurg, hheld, hq, hi, hl, hp⟩

theorem State.Initial.inv {s : State} (h : s.Initial) : s.Inv :=
  s.inv_iff.mpr ⟨h.tableOk, h.queuesOk, h.unitsOk, fun _ => h⟩

/-- A frame acts only while PORSTN is high, and leaves it high. -/
theorem inv_keptByFrames : KeptByFrames State.Inv where
  shift bytes s hp h := by
    obtain ⟨ht, hq, hu, -⟩ := s.inv_iff.mp h
    exact (State.inv_iff _).mpr ⟨tableOk_keptByFrames.shift bytes s hp ht, queuesOk_keptByFrames.shift bytes s hp hq,
      unitsOk_keptByFrames.shift bytes s hp hu, fun low => Bool.noConfusion (hp.symm.trans low)⟩
  status status s hp h := by
    obtain ⟨ht, hq, hu, -⟩ := s.inv_iff.mp h
    exact (State.inv_iff _).mpr ⟨tableOk_keptByFrames.status status s hp ht,
      queuesOk_keptByFrames.status status s hp hq, unitsOk_keptByFrames.status status s hp hu,
      fun low => Bool.noConfusion (hp.symm.trans low)⟩
  act c i args s hp h := by
    obtain ⟨ht, hq, hu, -⟩ := s.inv_iff.mp h
    exact (State.inv_iff _).mpr ⟨tableOk_keptByFrames.act c i args s hp ht,
      queuesOk_keptByFrames.act c i args s hp hq, unitsOk_keptByFrames.act c i args s hp hu,
      fun low => Bool.noConfusion ((hp.symm.trans (linkAct_porstnLow c i args s).symm).trans low)⟩

theorem block_inv (c : Instr) (s t : State) (hc : Instr.linkCommand c = none) (h : s.Inv) (hs : exec c s = .next t) :
    t.Inv := by
  by_cases hbad : ∃ bytes, c = .badframe bytes
  · obtain ⟨bytes, rfl⟩ := hbad
    cases hs
    exact inv_keptByFrames.linkFrame bytes h
  · by_cases hpor : c = .powerOnReset
    · subst hpor
      cases hs
      exact State.Initial.inv ⟨rfl, rfl, rfl, rfl, rfl, rfl, rfl, rfl⟩
    · obtain ⟨ht, hq, hu, hheld⟩ := s.inv_iff.mp h
      have noFrame : ∀ bytes, c ≠ .badframe bytes := fun bytes hb => hbad ⟨bytes, hb⟩
      have leaves := block_leaves c s t hc noFrame hpor hs
      exact t.inv_iff.mpr ⟨block_tableOk c s t hc ht hq hs, block_queuesOk c s t hc hq hs, leaves.unitsOk hu,
        fun low => block_initial c s t hc noFrame (hheld (leaves.porstnLow low)) (leaves.porstnLow low) hs⟩

theorem State.Inv.withPending {s : State} (h : s.Inv) (q : List Instr) : ({ s with pending := q } : State).Inv := by
  obtain ⟨ht, hq, hu, hheld⟩ := s.inv_iff.mp h
  exact (State.inv_iff _).mpr ⟨ht.congr rfl rfl (State.noNewHeld_of_lists fun p => by cases p <;> rfl),
    hq.congr (fun p => by cases p <;> rfl) rfl rfl, ⟨hu.incidents, hu.held⟩, hheld⟩

/-- Settles O58: the reset state is the initial state of every block, which meets each part of the invariant. -/
theorem resetMeetsTheInvariants : Obligations.ResetMeetsTheInvariants := by
  unfold Obligations.ResetMeetsTheInvariants
  have initial : State.reset.Initial := ⟨rfl, rfl, rfl, rfl, rfl, rfl, rfl, rfl⟩
  exact ⟨initial.inv, initial.queuesOk⟩

/-- Settles O59, command by command: frames of the link through what every frame ends in (`inv_keptByFrames`), the other
commands each through what it leaves (`block_inv`). -/
theorem stepKeepsTheInvariant : Obligations.StepKeepsTheInvariant := by
  unfold Obligations.StepKeepsTheInvariant
  intro s t h hs
  exact step_keeps (fun _ q h => h.withPending q) (exec_keeps inv_keptByFrames block_inv) h hs

end Sys2Proof.Machine
end

section
/-! ## Windows, refusals, retakes and the part mode

How decoding reads the list of LIVE lines whose windows a range meets, what a take leaves of an entry that is forwarded,
refused or parked again, and the two commands that set the mode. -/

namespace Sys2Proof.Machine

/-! ### The windows a range meets -/

/-- The list of lines met begins with the lowest LIVE line whose window the range meets. -/
theorem windowsMet_of_lowest {s : State} {r : Span} {i : LineNo} (hl : (s.line i).isLive = true)
    (hm : Span.meets r (s.line i).active.windowSpan = true)
    (hlow : ∀ j : LineNo, j < i → (s.line j).isLive = true → Span.meets r (s.line j).active.windowSpan = false) :
    ∃ more, windowsMet s r = i :: more := by
  refine filter_allLines_of_lowest (by rw [hl, hm]; rfl) fun j hj => ?_
  cases hjl : (s.line j).isLive with
  | false => rfl
  | true => exact hlow j hj hjl

theorem requestSpan_low_lt_high (addr : Addr) (size : Size) :
    (requestSpan addr size).low < (requestSpan addr size).high := by
  have hs : 0 < size.bytes := by cases size <;> decide
  have ha : addr.toNat < Config.topOfSpace := addr.isLt
  exact lt_min (Nat.lt_add_of_pos_right hs) ha

/-- A range that has a byte and lies inside another meets it. -/
theorem Span.meets_of_inside {a b : Span} (ha : a.low < a.high) (h : Span.inside a b = true) :
    Span.meets a b = true := by
  obtain ⟨hlow, hhigh⟩ := of_decide_eq_true h
  refine decide_eq_true ?_
  rwa [max_eq_left hlow, min_eq_left hhigh]

/-- Decoding of a range that lies inside the window of no line it meets. -/
theorem decodeRequest_straddle {s : State} {access : Access} {addr : Addr} {size : Size} {i : LineNo}
    {more : List LineNo} (hm : s.engine.mode = .engaged) (hw : windowsMet s (requestSpan addr size) = i :: more)
    (hf : ((i :: more).find? fun j => Span.inside (requestSpan addr size) (s.line j).active.windowSpan) = none) :
    decodeRequest s access addr size = .refused (.shape .straddle) i := by
  simp only [decodeRequest, hm, decodeEngaged, hw, hf]

/-- Settles O13: the line charged is the head of the list of lines met, and the range is inside none of them. -/
theorem straddleChargesLowestWindowMet : Obligations.StraddleChargesLowestWindowMet := by
  unfold Obligations.StraddleChargesLowestWindowMet
  intro s access addr size i hm hl hmeets hlow hnone
  obtain ⟨more, hw⟩ := windowsMet_of_lowest hl hmeets hlow
  refine decodeRequest_straddle hm hw (List.find?_eq_none.mpr fun j hj => ?_)
  rw [hnone j (mem_windowsMet (hw ▸ hj))]
  exact Bool.false_ne_true

/-! ### Decoding at an index -/

/-- What decoding in the window of line `i` finds, an operation or the detail of a refusal. -/
def Decoded.ofWindow (i : LineNo) : Except ShapeDetail LineOp → Decoded
  | .ok op => .operation i op
  | .error detail => .refused (.shape detail) i

/-- A range inside the window of the lowest line it meets is decoded in that window. -/
theorem decodeRequest_inWindow {s : State} {access : Access} {addr : Addr} {size : Size} {i : LineNo}
    {more : List LineNo} (hm : s.engine.mode = .engaged) (hw : windowsMet s (requestSpan addr size) = i :: more)
    (hin : Span.inside (requestSpan addr size) (s.line i).active.windowSpan = true) :
    decodeRequest s access addr size = .ofWindow i (decodeInWindow (s.line i).active access addr size) := by
  have found : (i :: more).find? (fun j => Span.inside (requestSpan addr size) (s.line j).active.windowSpan) = some i := by
    simp only [List.find?_cons, hin]
  simp only [decodeRequest, hm, decodeEngaged, hw, found]
  cases decodeInWindow (s.line i).active access addr size <;> rfl

section
variable {d : Image} {access : Access} {addr : Addr} {size : Size}

theorem decodeInWindow_misaligned (h : (addr.toNat - d.windowBase) % d.elemSize ≠ 0) :
    decodeInWindow d access addr size = .error .misaligned := by
  simp only [decodeInWindow, if_pos h]

theorem decodeInWindow_wrongSize (ha : (addr.toNat - d.windowBase) % d.elemSize = 0) (hs : size.bytes ≠ d.elemSize) :
    decodeInWindow d access addr size = .error .wrongSize := by
  simp only [decodeInWindow, ha, ne_eq, not_true_eq_false, if_false, if_pos hs]

theorem decodeInWindow_index (ha : (addr.toNat - d.windowBase) % d.elemSize = 0) (hs : size.bytes = d.elemSize) :
    decodeInWindow d access addr size =
      decodeIndex d (Access.isWrite access) ((addr.toNat - d.windowBase) / d.elemSize) := by
  simp only [decodeInWindow, ha, hs, ne_eq, not_true_eq_false, if_false]

end

theorem Image.isQueue_iff (d : Image) : d.isQueue = true ↔ d.kind = 2 := by
  simp [Image.isQueue]

/-- A refusal or an operation of line `i`, decided by a condition on its descriptor. -/
theorem Decoded.ofWindow_ite (i : LineNo) (c : Prop) [Decidable c] (op : LineOp) (detail : ShapeDetail) :
    Decoded.ofWindow i (if c then .ok op else .error detail) =
      if c then .operation i op else .refused (.shape detail) i := by
  split <;> rfl

/-- Settles O14: the line is the lowest met, since it meets the range that lies inside it; alignment, size and index
then decide as `decodeInWindow` and `decodeIndex` do. -/
theorem windowAccessDecodesByIndex : Obligations.WindowAccessDecodesByIndex := by
  unfold Obligations.WindowAccessDecodesByIndex
  intro s access addr size i hm hl hin hother d o decoded
  have hmeets := Span.meets_of_inside (requestSpan_low_lt_high addr size) hin
  obtain ⟨more, hw⟩ := windowsMet_of_lowest hl hmeets fun j hj => hother j hj.ne
  have inWindow : decoded = .ofWindow i (decodeInWindow d access addr size) := decodeRequest_inWindow hm hw hin
  refine ⟨fun ha => ?_, fun ha hs => ?_, fun ha hs => ?_⟩
  · rw [inWindow, decodeInWindow_misaligned ha]
    rfl
  · rw [inWindow, decodeInWindow_wrongSize ha hs]
    rfl
  · have atIndex : ∀ k, o / d.elemSize = k → decoded = .ofWindow i (decodeIndex d (Access.isWrite access) k) := by
      rintro k rfl
      rw [inWindow, decodeInWindow_index ha hs]
    simp only [← Image.isQueue_iff]
    cases access with
    | read =>
      exact ⟨atIndex 0, atIndex 1, atIndex 2, atIndex 3, fun k hk => atIndex (k + 4) (hk.trans (Nat.add_comm 4 k))⟩
    | write data =>
      refine ⟨atIndex 0, fun hk => (atIndex 1 hk).trans ?_, fun hk => (atIndex 2 hk).trans ?_, atIndex 3,
        fun k hk => (atIndex (k + 4) (hk.trans (Nat.add_comm 4 k))).trans ?_⟩
      all_goals exact Decoded.ofWindow_ite i _ _ _

/-! ### Entries forwarded and entries refused -/

/-- An entry that is not RELEASED is decoded afresh. -/
theorem decodeTaken_waiting {s : State} {e : Entry} (h : e.state = .waiting) :
    decodeTaken s e = decodeRequest s e.access e.addr e.size := by
  simp only [decodeTaken, h]

theorem decodeRequest_transparent {s : State} (h : s.engine.mode = .transparent) (access : Access) (addr : Addr)
    (size : Size) : decodeRequest s access addr size = .plain := by
  simp only [decodeRequest, h]

/-- Settles O12: the take of a plain entry is `issue` of its own transaction. -/
theorem plainEntryIsForwardedUnchanged : Obligations.PlainEntryIsForwardedUnchanged := by
  unfold Obligations.PlainEntryIsForwardedUnchanged
  refine ⟨fun s e hm hs => ?_, fun s p e ht => ?_⟩
  · rw [decodeTaken_waiting hs, decodeRequest_transparent hm]
  · have take : exec .take s = .next (issue p e (plainTransaction p e) (beginTake p e .plain s)) := by
      simp only [exec_take, execTake_takes ht, performDecoded]
    refine ⟨_, take, ?_, intakesAfter_issue releases_id fun q => by simp, ?_⟩
    · simp [plainTransaction]
    · apply State.eq_of_fields <;> simp

/-- Settles O16: the take of a refused entry answers it and hands the refusal's incident. -/
theorem refusalAnswersErrorAtTheTake : Obligations.RefusalAnswersErrorAtTheTake := by
  unfold Obligations.RefusalAnswersErrorAtTheTake
  intro s p e how i ht
  have take : exec .take s = .next (hand .lineEngine (refusalIncident p e how i)
      (answerEntry p e .error 0 (beginTake p e (.refused how i) s))) := by
    simp only [exec_take, execTake_takes ht, performDecoded]
  have answered : s.IntakesAfter (answerEntry p e .error 0 (beginTake p e (.refused how i) s)) p e
      (Entry.nowReady (.refused how i) .error 0) fun x => x :=
    intakesAfter_answer releases_id fun q => by simp
  refine ⟨_, take, answered.congr fun q => hand_intake _ _ _ q, ?_, ?_⟩
  · cases how <;> simp [refusalIncident, entryIncident, takeIncident]
  · apply State.eq_of_fields <;> simp

/-! ### Entries retaken -/

/-- A RELEASED push or pop keeps its class. -/
theorem decodeTaken_released {s : State} {e : Entry} {i : LineNo} {op : ParkedOp} (hs : e.state = .released)
    (hc : e.cls = some (.operation i op.lineOp)) : decodeTaken s e = .operation i op.lineOp := by
  have parked : Entry.parkedOp e = some (i, op) := by cases op <;> simp only [Entry.parkedOp, hc, ParkedOp.lineOp]
  cases op <;> simp only [decodeTaken, hs, parked, ParkedOp.lineOp]

/-- An operation that the line blocks under STALL parks. -/
theorem performOp_blocked {due : Option (BitVec 32)} {p : Port} {e : Entry} {i : LineNo} {op : ParkedOp} {s : State}
    (h : (s.line i).Blocks op) : performOp due p e i op.lineOp s = park p e due s := by
  cases op with
  | pop =>
    obtain ⟨hfill, hpolicy⟩ := h
    simp only [ParkedOp.lineOp, performOp, queuePop, hfill, lt_irrefl, if_false, hpolicy, if_true]
  | push =>
    obtain ⟨hq, hfill, hpolicy⟩ := h
    simp only [ParkedOp.lineOp, performOp, hq, if_true, queuePush, if_neg (Nat.not_lt.mpr hfill), overrun, hpolicy]

/-- The intakes after a take that parks its entry. -/
theorem intake_park_beginTake (s : State) (p q : Port) (e : Entry) (d : Decoded) (due : Option (BitVec 32)) :
    (park p e due (beginTake p e d s)).intake q =
      { s.intake q with
        openList := (s.intake q).openList.map fun x =>
          if q = p ∧ x.tag = e.tag then Entry.nowIs d .parked x else x,
        deadline := if q = p then due else (s.intake q).deadline } := by
  rw [intake_park, intake_beginTake]
  simp only [List.map_map]
  congr 1
  · apply List.map_congr_left
    intro x _
    by_cases hx : q = p ∧ x.tag = e.tag <;> simp [hx, Entry.nowIs]
  · by_cases hq : q = p <;> simp [hq]

/-- The take of an operation that its line blocks under STALL. -/
theorem take_blocked {s : State} {p : Port} {e : Entry} {i : LineNo} {op : ParkedOp}
    (ht : s.Takes p e (.operation i op.lineOp)) (hb : (s.line i).Blocks op) :
    exec .take s =
      .next (park p e (deadlineIfParked s p e (.operation i op.lineOp))
        (beginTake p e (.operation i op.lineOp) s)) := by
  simp only [exec_take, execTake_takes ht, performDecoded]
  rw [performOp_blocked (by rwa [beginTake_line])]

theorem Port.other_ne (p : Port) : Port.other p ≠ p := by
  cases p <;> decide

/-- Settles O27: a RELEASED push or pop keeps its class, and the deadline it parks with again is its port's. -/
theorem retakeKeepsClassAndDeadline : Obligations.RetakeKeepsClassAndDeadline := by
  unfold Obligations.RetakeKeepsClassAndDeadline
  refine ⟨fun s e i op hop hs hc => ?_, fun s p e i op hr hm hn hs hc hblocks => ?_⟩
  · obtain rfl | rfl := hop
    · exact decodeTaken_released (op := .push) hs hc
    · exact decodeTaken_released (op := .pop) hs hc
  · obtain ⟨parked, rfl, hb⟩ : ∃ parked : ParkedOp, op = parked.lineOp ∧ (s.line i).Blocks parked := by
      obtain ⟨rfl, h⟩ | ⟨rfl, h⟩ := hblocks
      · exact ⟨.push, rfl, h⟩
      · exact ⟨.pop, rfl, h⟩
    have due : deadlineIfParked s p e (.operation i parked.lineOp) = (s.intake p).deadline := by
      simp only [deadlineIfParked, hs]
    have take := take_blocked ⟨hr, hm, hn, decodeTaken_released hs hc⟩ hb
    rw [due] at take
    refine ⟨_, take, ?_, ?_, ?_, ?_⟩
    · rw [intake_park_beginTake, if_pos rfl]
    · simp only [intake_park_beginTake, true_and]
    · simp [intake_park_beginTake, Port.other_ne]
    · apply State.eq_of_fields <;> simp

/-! ### ENGAGE and DISENGAGE -/

theorem exec_engage (rest : List Byte) (s : State) :
    exec (.engage rest) s = .next (partFrame .engage rest engagePart s) := rfl

theorem exec_disengage (rest : List Byte) (s : State) :
    exec (.disengage rest) s = .next (partFrame .disengage rest disengagePart s) := rfl

/-- Settles O47: both frames are long enough and name the part, so both commands act. -/
theorem engageAndDisengageSetTheMode : Obligations.EngageAndDisengageSetTheMode := by
  unfold Obligations.EngageAndDisengageSetTheMode
  intro s more hp hn
  have hlen : more.length + 2 ≤ Config.frameMax := by simpa [Config.frameMax] using hn
  refine ⟨?_, ?_⟩
  · rw [exec_engage, partFrame_acts hp hlen (by simp [LinkCode.lengthOk])]
    rfl
  · rw [exec_disengage, partFrame_acts hp hlen (by simp [LinkCode.lengthOk])]
    refine ⟨_, rfl, heldEnded_of_endHeld fun q => ?_, rfl, rfl⟩
    simp [reply, disengagePart, intake_abandon]

end Sys2Proof.Machine
end

section
namespace Sys2Proof.Machine

/-! ### References that under-run, and the reads answered at the take -/

/-- A newest read, tap access or amend is one access to its reference; only the purpose differs. -/
theorem performOp_reference {op : LineOp} {k : Nat}
    (hop : (op = .newestRead ∧ k = 0) ∨ op = .tapRead k ∨ op = .tapPeek k ∨ op = .tapAmend k) :
    ∃ purpose : Purpose, ∀ (due : Option (BitVec 32)) (p : Port) (e : Entry) (i : LineNo) (s : State),
      performOp due p e i op s = accessReference p e i k purpose s := by
  obtain ⟨rfl, rfl⟩ | rfl | rfl | rfl := hop
  · exact ⟨.newestRead, fun _ _ _ _ _ => rfl⟩
  · exact ⟨.tapRead, fun _ _ _ _ _ => rfl⟩
  · exact ⟨.tapRead, fun _ _ _ _ _ => rfl⟩
  · exact ⟨.amend, fun _ _ _ _ _ => rfl⟩

/-- Settles O20: all four operations are one access to a reference, which under-runs. -/
theorem underrunIsAnsweredByPolicy : Obligations.UnderrunIsAnsweredByPolicy := by
  unfold Obligations.UnderrunIsAnsweredByPolicy
  intro s p e i op k hop ht hk status
  obtain ⟨purpose, access⟩ := performOp_reference hop
  have take : exec .take s = .next (hand .lineEngine (entryIncident p i e (.underrun k (s.line i).fill))
      (answerEntry p e status (s.line i).active.fillValue (beginTake p e (.operation i op) s))) := by
    simp only [exec_take, execTake_takes ht, performDecoded, access]
    rw [accessReference_underruns (by rwa [beginTake_line]), beginTake_line]
    rfl
  have answered : s.IntakesAfter (answerEntry p e status (s.line i).active.fillValue
      (beginTake p e (.operation i op) s)) p e
      (Entry.nowReady (.operation i op) status (s.line i).active.fillValue) fun x => x :=
    intakesAfter_answer releases_id fun q => by simp
  refine ⟨_, take, answered.congr fun q => hand_intake _ _ _ q, ?_, ?_⟩
  · simp [entryIncident, takeIncident]
  · apply State.eq_of_fields <;> simp

theorem genValue_of_none {s : State} {i : LineNo} (h : s.pendingOf i = none) :
    genValue s i = (s.line i).generation.toNat := by
  simp [genValue, h]

theorem genValue_of_pending {s : State} {i : LineNo} (h : s.pendingOf i ≠ none) :
    genValue s i = (s.line i).generation.toNat + 256 := by
  simp [genValue, Option.isSome_iff_ne_none, h]

/-- The start of a take leaves the value of the GEN slot as it is. -/
theorem genValue_beginTake (p : Port) (e : Entry) (d : Decoded) (s : State) (i : LineNo) :
    genValue (beginTake p e d s) i = genValue s i := by
  simp only [genValue, beginTake_line, beginTake_pendingOf]

/-- Settles O22: each read answers its entry with the number its slot shows. -/
theorem levelAndGenerationReadsAnswerAtTheTake : Obligations.LevelAndGenerationReadsAnswerAtTheTake := by
  unfold Obligations.LevelAndGenerationReadsAnswerAtTheTake
  intro s p e i op value hop ht
  have slot : (op = .levelRead ∧ value = (s.line i).fill) ∨ (op = .generationRead ∧ value = genValue s i) := by
    obtain hlevel | ⟨rfl, hnone, rfl⟩ | ⟨rfl, hpending, rfl⟩ := hop
    · exact .inl hlevel
    · exact .inr ⟨rfl, (genValue_of_none hnone).symm⟩
    · exact .inr ⟨rfl, (genValue_of_pending hpending).symm⟩
  have take : exec .take s =
      .next (answerEntry p e .okay (numberData value) (beginTake p e (.operation i op) s)) := by
    rw [exec_take, execTake_takes ht]
    obtain ⟨rfl, rfl⟩ | ⟨rfl, rfl⟩ := slot
    · simp only [performDecoded, performOp, levelRead, beginTake_line]
    · simp only [performDecoded, performOp, generationRead, genValue_beginTake]
  refine ⟨_, take, intakesAfter_answer releases_id fun q => by simp, ?_⟩
  apply State.eq_of_fields <;> simp

end Sys2Proof.Machine
end

section
namespace Sys2Proof.Machine

/-! ### Queue operations that move no cursor -/

/-- The take of an operation that answers its entry at once and hands one incident: nothing else changes. -/
theorem takeAnswered_with_incident (s : State) (p : Port) (e : Entry) (i : LineNo) (op : LineOp) (status : Status)
    (data : Data) (detail : Detail) :
    let t := hand .lineEngine (entryIncident p i e detail)
      (answerEntry p e status data (beginTake p e (.operation i op) s))
    s.IntakesAfter t p e (Entry.nowReady (.operation i op) status data) (fun x => x)
      ∧ t.handed = s.handed ++ [takeIncident p e i detail]
      ∧ t = { s with
          portA := t.portA, portB := t.portB, handed := t.handed, engine := { s.engine with lastChosen := p } } := by
  intro t
  have answered : s.IntakesAfter (answerEntry p e status data (beginTake p e (.operation i op) s)) p e
      (Entry.nowReady (.operation i op) status data) fun x => x :=
    intakesAfter_answer releases_id fun q => by simp
  refine ⟨answered.congr fun q => hand_intake _ _ _ q, ?_, ?_⟩
  · simp [t, entryIncident, takeIncident]
  · apply State.eq_of_fields <;> simp [t]

/-- A push to a full queue is decided by the overflow policy alone. -/
theorem performOp_push_full {due : Option (BitVec 32)} {p : Port} {e : Entry} {i : LineNo} {s : State}
    (hq : (s.line i).active.isQueue = true) (hfull : (s.line i).L ≤ (s.line i).fill) :
    performOp due p e i .push s = overrun due p e i s := by
  simp only [performOp, hq, if_true, queuePush, if_neg (Nat.not_lt.mpr hfull)]

/-- The two overflow policies that discard the push, each with the status and the OVERRUN detail it gives. -/
theorem overrun_discards {due : Option (BitVec 32)} {p : Port} {e : Entry} {i : LineNo} {s : State} {status : Status}
    {detail : OverrunDetail}
    (h : ((s.line i).active.overflowPolicy = 0 ∧ status = .okay ∧ detail = .dropped)
      ∨ ((s.line i).active.overflowPolicy = 3 ∧ status = .error ∧ detail = .errored)) :
    overrun due p e i s =
      hand .lineEngine (entryIncident p i e (.overrun detail)) (answerEntry p e status 0 s) := by
  obtain ⟨hpolicy, rfl, rfl⟩ | ⟨hpolicy, rfl, rfl⟩ := h <;> simp only [overrun, hpolicy]

/-- Settles O24: the push is discarded by its policy, and all its take does is answer it and hand OVERRUN. -/
theorem fullQueueDropsOrErrors : Obligations.FullQueueDropsOrErrors := by
  unfold Obligations.FullQueueDropsOrErrors
  intro s p e i status detail ht hq hfull hpolicy
  refine ⟨_, ?_, takeAnswered_with_incident s p e i .push status 0 (.overrun detail)⟩
  simp only [exec_take, execTake_takes ht, performDecoded]
  rw [performOp_push_full (by rwa [beginTake_line]) (by rwa [beginTake_line]),
    overrun_discards (by rwa [beginTake_line])]

/-- A pop from an empty queue that may not park is an under-run at reference 0. -/
theorem performOp_pop_underruns {due : Option (BitVec 32)} {p : Port} {e : Entry} {i : LineNo} {s : State}
    (hfill : (s.line i).fill = 0) (hpolicy : (s.line i).active.underrunPolicy ≠ 2) :
    performOp due p e i .pop s =
      hand .lineEngine (entryIncident p i e (.underrun 0 0))
        (answerEntry p e (underrunStatus (s.line i)) (s.line i).active.fillValue s) := by
  simp only [performOp, queuePop, hfill, lt_irrefl, if_false, if_neg hpolicy, underrun, answerUnderrun_eq]

/-- Settles O29: all the take does is answer the pop by the under-run policy and hand UNDERRUN. -/
theorem emptyPopUnderruns : Obligations.EmptyPopUnderruns := by
  unfold Obligations.EmptyPopUnderruns
  intro s p e i ht hfill hpolicy status
  refine ⟨_, ?_, takeAnswered_with_incident s p e i .pop status (s.line i).active.fillValue (.underrun 0 0)⟩
  have noStall : (s.line i).active.underrunPolicy ≠ 2 := by omega
  simp only [exec_take, execTake_takes ht, performDecoded]
  rw [performOp_pop_underruns (by rwa [beginTake_line]) (by rwa [beginTake_line]), beginTake_line]
  rfl

/-- The deadline a WAITING entry parks with counts the line's stall limit from the take (R89). -/
theorem deadlineIfParked_waiting {s : State} {p : Port} {e : Entry} {i : LineNo} {op : LineOp}
    (h : e.state = .waiting) :
    deadlineIfParked s p e (.operation i op) =
      some (s.tickCount + BitVec.ofNat 32 (s.line i).active.stallLimit) := by
  simp only [deadlineIfParked, h]

/-- Settles O26: the line blocks the push or the pop, so its take parks it with a fresh deadline. -/
theorem stallParksTheEntry : Obligations.StallParksTheEntry := by
  unfold Obligations.StallParksTheEntry
  intro s p e i op ht hw hblocks
  obtain ⟨parked, rfl, hb⟩ : ∃ parked : ParkedOp, op = parked.lineOp ∧ (s.line i).Blocks parked := by
    obtain ⟨rfl, h⟩ | ⟨rfl, h⟩ := hblocks
    · exact ⟨.push, rfl, h⟩
    · exact ⟨.pop, rfl, h⟩
  have take := take_blocked ht hb
  rw [deadlineIfParked_waiting hw] at take
  refine ⟨_, take, ?_, ?_, ?_, ?_, ?_⟩
  · rw [intake_park_beginTake, if_pos rfl]
  · simp only [intake_park_beginTake, true_and]
  · rw [intake_park_beginTake]
  · simp [intake_park_beginTake, Port.other_ne]
  · apply State.eq_of_fields <;> simp

end Sys2Proof.Machine
end

section
/-! ## Deadlines, IMMEDIATE commits and QUERY_LINE

An expiry is the end of every held entry of one port; an IMMEDIATE commit is a commit dealt with at once, within the
frame that asks for it; QUERY_LINE reads the record of a line, byte by byte. -/

namespace Sys2Proof.Machine

/-- Settles O60: every command keeps the queues in order, and a step is a command with the queue's rest. -/
theorem stepKeepsTheQueuesInOrder : Obligations.StepKeepsTheQueuesInOrder := by
  unfold Obligations.StepKeepsTheQueuesInOrder
  exact fun _ _ h hs => step_keeps_queuesOk h hs

/-! ### Ticks and deadlines -/

theorem exec_tick (s : State) : exec .tick s = .next { s with tickCount := s.tickCount + 1 } := rfl

/-- Settles O6: the tick count is a 32-bit word, so adding one wraps. -/
theorem tickAdvancesTheCount : Obligations.TickAdvancesTheCount := by
  unfold Obligations.TickAdvancesTheCount
  exact fun s => ⟨_, exec_tick s, BitVec.toNat_add s.tickCount 1, rfl⟩

theorem exec_expiry_none {p : Port} {s : State} (h : (s.intake p).deadline = none) :
    exec (.expiry p) s = .next s := by
  simp only [exec, execExpiry, h]

theorem exec_expiry_some {p : Port} {s : State} {d : BitVec 32} (h : (s.intake p).deadline = some d) :
    exec (.expiry p) s = .next (if deadlineReached s.tickCount d then expire p s else s) := by
  simp only [exec, execExpiry, h]

theorem deadlineReached_self (now : BitVec 32) : deadlineReached now now = true := by
  simp [deadlineReached]

/-- A deadline 1 to 65535 ticks ahead is not reached (R89). -/
theorem deadlineReached_ahead {now : BitVec 32} {n : Nat} (h1 : 1 ≤ n) (h2 : n ≤ 65535) :
    deadlineReached now (now + BitVec.ofNat 32 n) = false := by
  have ahead : (now - (now + BitVec.ofNat 32 n)).toNat = 2 ^ 32 - n := by
    simp only [BitVec.toNat_sub, BitVec.toNat_add, BitVec.toNat_ofNat]
    omega
  rw [deadlineReached, ahead]
  exact decide_eq_false (by omega)

/-- Settles O8: EXPIRY looks at the deadline first, and at the held entry only where the deadline has come. -/
theorem expiryWaitsForTheDeadline : Obligations.ExpiryWaitsForTheDeadline := by
  unfold Obligations.ExpiryWaitsForTheDeadline
  intro p s h
  obtain hnone | ⟨n, h1, h2, hsome⟩ := h
  · exact exec_expiry_none hnone
  · rw [exec_expiry_some hsome, deadlineReached_ahead h1 h2]
    rfl

/-- The one held entry of a list, found by the filter. -/
theorem heldEntries_of_split {it : Intake} {before after : List Entry} {e : Entry}
    (hl : it.openList = before ++ e :: after) (hothers : ∀ x ∈ before ++ after, Entry.isHeld x = false)
    (he : Entry.isHeld e = true) : heldEntries (fun _ => true) it = [e] := by
  have none : ∀ l : List Entry, (∀ x ∈ l, Entry.isHeld x = false) → l.filter (fun x => Entry.isHeld x && true) = [] :=
    fun l h => List.filter_eq_nil_iff.mpr fun x hx => by simp [h x hx]
  rw [heldEntries, hl, List.filter_append, List.filter_cons_of_pos (by simp [he]),
    none before fun x hx => hothers x (List.mem_append_left _ hx),
    none after fun x hx => hothers x (List.mem_append_right _ hx)]
  rfl

theorem endEntry_of_not_held {which : Entry → Bool} {x : Entry} (h : Entry.isHeld x = false) :
    endEntry which x = x := by
  simp [endEntry, h]

/-- Ending the one held entry of a list leaves the entries around it as they are. -/
theorem endHeld_openList_of_split {it : Intake} {before after : List Entry} {e : Entry}
    (hl : it.openList = before ++ e :: after) (hothers : ∀ x ∈ before ++ after, Entry.isHeld x = false)
    (he : Entry.isHeld e = true) :
    (endHeld (fun _ => true) it).openList = before ++ Entry.answered .error 0 e :: after := by
  have keeps : ∀ l : List Entry, (∀ x ∈ l, Entry.isHeld x = false) → l.map (endEntry fun _ => true) = l :=
    fun l h => (List.map_congr_left fun x hx => endEntry_of_not_held (h x hx)).trans (List.map_id l)
  have ends : endEntry (fun _ => true) e = Entry.answered .error 0 e := by simp [endEntry, he]
  rw [endHeld_openList, hl, List.map_append, List.map_cons, ends,
    keeps before fun x hx => hothers x (List.mem_append_left _ hx),
    keeps after fun x hx => hothers x (List.mem_append_right _ hx)]

theorem expire_handed (p : Port) (s : State) :
    (expire p s).handed = s.handed
      ++ ((heldEntries (fun _ => true) (s.intake p)).filterMap (timeoutIncident p)).map
        fun x => { source := .intake p, incident := x } := by
  cases p <;> rfl

/-- Settles O7: the deadline is reached at its own tick, and the held entry is the only one that ends. -/
theorem expiryEndsTheHeldEntry : Obligations.ExpiryEndsTheHeldEntry := by
  unfold Obligations.ExpiryEndsTheHeldEntry
  intro p before after e i op s hl hothers he hop hd
  have acts : exec (.expiry p) s = .next (expire p s) := by
    rw [exec_expiry_some hd, deadlineReached_self, if_pos rfl]
  refine ⟨_, acts, ?_, ?_, ?_, ?_⟩
  · rw [intake_expire, if_pos rfl]
    have list := endHeld_openList_of_split hl hothers he
    have tag : (endHeld (fun _ => true) (s.intake p)).nextTag = (s.intake p).nextTag := by rw [endHeld_eq]
    generalize endHeld (fun _ => true) (s.intake p) = it at list tag
    obtain ⟨openList, deadline, nextTag⟩ := it
    subst list tag
    cases ha : e.access <;> simp [Entry.answered, formAnswer, ha]
  · rw [intake_expire, if_neg (Port.other_ne p)]
  · rw [expire_handed, heldEntries_of_split hl hothers he]
    simp [timeoutIncident, hop]
  · cases p <;> rfl

end Sys2Proof.Machine
end

section
namespace Sys2Proof.Machine

/-! ### IMMEDIATE commits -/

theorem exec_arm (rest : List Byte) (s : State) : exec (.arm rest) s = .next (lineFrame .arm rest armLine s) := rfl

/-- An IMMEDIATE ARM whose checks pass, the clash check with them, applies the staged image as a due commit is. -/
theorem armLine_immediate {i : LineNo} {more : List Byte} {s : State} (idle : s.pendingOf i = none)
    (image : imageFault (s.stagedOf i) = none) (fits : clashCheck s i (s.stagedOf i) = none)
    (live : (s.stagedOf i).kind ≠ 0 ∨ (s.line i).isLive = true) :
    armLine i (0x02 :: more) s = (dueCommit .commitUnit i s, okWith []) := by
  have notlive : ¬((s.stagedOf i).isNone = true ∧ (s.line i).isLive = false) := by
    rintro ⟨hnone, hidle⟩
    obtain hk | hl := live
    · exact hk (by simpa [Image.isNone] using hnone)
    · rw [hl] at hidle
      cases hidle
  simp [armLine, idle, armTrigger, notlive, image, armAccepted, fits, dueCommit]

/-- Where no commit is pending, clearing it changes nothing. -/
theorem pendingCommit_set_none {s : State} {i : LineNo} (h : s.pendingOf i = none) :
    s.commit.pendingCommit.set i none = s.commit.pendingCommit := by
  rw [← h]
  exact Vector.set_getElem_self _

/-- An IMMEDIATE ARM that is not refused deals with its commit after the frame is shifted, and replies OK. -/
theorem exec_arm_immediate {s : State} {i : LineNo} {more : List Byte} (hp : s.porstnLow = false)
    (hn : more.length ≤ 37) (idle : s.pendingOf i = none) (image : imageFault (s.stagedOf i) = none)
    (fits : (s.stagedOf i).isNone = true ∨ s.NoClash i (s.stagedOf i))
    (live : (s.stagedOf i).kind ≠ 0 ∨ (s.line i).isLive = true) :
    ∃ t : State, exec (.arm (lineNoByte i :: 0x02 :: more)) s = .next (setHeld (okWith []) t)
      ∧ (shiftFrame (0x13 :: lineNoByte i :: 0x02 :: more) s).CommitDealt t .commitUnit i := by
  refine ⟨_, ?_, dueCommit_dealt _ .commitUnit i⟩
  rw [exec_arm, lineFrame_acts hp (by simpa [Config.frameMax] using hn) (by simp [LinkCode.lengthOk])
    (lineOfByte_lineNoByte i)]
  exact congrArg (fun r => Host.Outcome.next (reply r))
    (armLine_immediate (s := shiftFrame (0x13 :: lineNoByte i :: 0x02 :: more) s) idle image
      ((clashCheck_eq_none_iff _ i _).mpr fits) live)

/-- Settles O38: the commit is dealt with as a soft one, between the frame's shift and its reply. -/
theorem immediateSoftCommitKeepsTheContents : Obligations.ImmediateSoftCommitKeepsTheContents := by
  unfold Obligations.ImmediateSoftCommitKeepsTheContents
  intro s i more hp hn idle image hkind kept noClash
  obtain ⟨t, acts, -, applies, -⟩ := exec_arm_immediate hp hn idle image (.inr noClash) (.inl hkind)
  obtain ⟨soft, -⟩ := applies hkind noClash
  obtain ⟨engine, intakes, rest⟩ := soft kept
  refine ⟨_, acts, engine, fun q => ?_, ?_, ?_⟩
  · rw [setHeld_intake, intakes, shiftFrame_intake]
    rfl
  · rw [rest]
    rfl
  · rw [rest, shiftFrame_commit, pendingCommit_set_none idle]
    rfl

/-- Settles O39: the commit is dealt with as a hard or a retiring one; both empty the line. -/
theorem immediateHardOrRetiringCommitEmptiesTheLine : Obligations.ImmediateHardOrRetiringCommitEmptiesTheLine := by
  unfold Obligations.ImmediateHardOrRetiringCommitEmptiesTheLine
  intro s i more state active cause hp hn idle image hcase
  obtain ⟨fits, live⟩ : ((s.stagedOf i).isNone = true ∨ s.NoClash i (s.stagedOf i))
      ∧ ((s.stagedOf i).kind ≠ 0 ∨ (s.line i).isLive = true) := by
    obtain ⟨hkind, -, noClash, -⟩ | ⟨hkind, hlive, -⟩ := hcase
    · exact ⟨.inr noClash, .inl hkind⟩
    · exact ⟨.inl (by simp [Image.isNone, hkind]), .inr hlive⟩
  obtain ⟨t, acts, -, applies, retires⟩ := exec_arm_immediate hp hn idle image fits live
  obtain ⟨engine, ended, handed, rest⟩ : (shiftFrame (0x13 :: lineNoByte i :: 0x02 :: more) s).CommittedEmpty t
      .commitUnit i state active cause := by
    obtain ⟨hkind, notKept, noClash, rfl, rfl, rfl⟩ | ⟨hkind, -, rfl, rfl, rfl⟩ := hcase
    · exact (applies hkind noClash).2 notKept
    · exact retires hkind
  refine ⟨_, acts, engine, fun q => ?_, handed, ?_, ?_⟩
  · rw [setHeld_intake, ended, shiftFrame_intake]
  · rw [rest]
    rfl
  · rw [rest, shiftFrame_commit, pendingCommit_set_none idle]
    rfl

end Sys2Proof.Machine
end

section
namespace Sys2Proof.Machine

/-! ### QUERY_LINE -/

theorem exec_queryLine (rest : List Byte) (s : State) :
    exec (.queryLine rest) s = .next (lineFrame .queryLine rest queryLineReply s) := rfl

/-- The indicator's code is that of the first entry held on the line (R102). -/
theorem parkedIndicator_eq {s : State} {p : Port} {i : LineNo} {n : Nat} (h : s.Indicates p i n) :
    parkedIndicator i (s.intake p) = n := by
  obtain ⟨rfl, hnone⟩ | ⟨before, after, x, hl, hbefore, hx, hstate⟩ := h
  · simp only [parkedIndicator, List.find?_eq_none.mpr fun x hx => Bool.eq_false_iff.mp (hnone x hx)]
  · have found : (s.intake p).openList.find? (Entry.heldOn i) = some x :=
      List.find?_eq_some_iff_append.mpr ⟨hx, before, after, hl, fun y hy => by simp [hbefore y hy]⟩
    obtain ⟨rfl, hs⟩ | ⟨rfl, hs⟩ := hstate <;> simp [parkedIndicator, found, hs]

theorem State.Indicates.le_two {s : State} {p : Port} {i : LineNo} {n : Nat} (h : s.Indicates p i n) : n ≤ 2 := by
  obtain ⟨rfl, -⟩ | ⟨-, -, -, -, -, -, ⟨rfl, -⟩ | ⟨rfl, -⟩⟩ := h <;> decide

/-- The flags and both indicators fit in the flags byte (R162). -/
theorem lineFlags_toNat {s : State} {i : LineNo} {a b : Nat} (ha : s.Indicates .A i a) (hb : s.Indicates .B i b) :
    (lineFlags s i).toNat =
      (if (s.line i).isLive = true then 1 else 0) + (if (s.line i).suspect = true then 2 else 0) + 4 * a + 16 * b := by
  have hA : parkedIndicator i s.portA = a := parkedIndicator_eq ha
  have hB : parkedIndicator i s.portB = b := parkedIndicator_eq hb
  have ha2 := ha.le_two
  have hb2 := hb.le_two
  rw [lineFlags, hA, hB, BitVec.toNat_ofNat]
  cases (s.line i).isLive <;> cases (s.line i).suspect <;>
    simp only [Bool.toNat_true, Bool.toNat_false, if_true, Bool.false_eq_true, if_false] <;> omega

theorem leBytes_two (v : Nat) : leBytes 2 v = [BitVec.ofNat 8 v, BitVec.ofNat 8 (v / 256)] := rfl

/-- The two little-endian bytes of a number, read back (R162). -/
theorem toNat_leBytes_two (v : Nat) :
    (BitVec.ofNat 8 v).toNat + 256 * (BitVec.ofNat 8 (v / 256)).toNat = v % 65536 := by
  simp only [BitVec.toNat_ofNat]
  omega

theorem outcomeBytes_split (o : CommitOutcome) : ∃ code reason other : Byte,
    CommitOutcome.bytes o = [code, reason, other] := by
  cases o with
  | refused reason => cases reason <;> exact ⟨_, _, _, rfl⟩
  | _ => exact ⟨_, _, _, rfl⟩

/-- A line number is read back from its byte. -/
theorem toNat_ofNat_lineNo (i : LineNo) : (BitVec.ofNat 8 i.val).toNat = i.val := by
  rw [BitVec.toNat_ofNat]
  omega

theorem exec_queryLine_acts {s : State} {i : LineNo} {more : List Byte} (hp : s.porstnLow = false)
    (hn : more.length ≤ 38) :
    exec (.queryLine (lineNoByte i :: more)) s = .next { s with
      link := s.linkAfter (0x20 :: lineNoByte i :: more) { status := .ok, bytes := queryLineBytes s i } } := by
  rw [exec_queryLine, lineFrame_acts hp (by simpa [Config.frameMax] using hn) (by simp [LinkCode.lengthOk])
    (lineOfByte_lineNoByte i)]
  rfl

/-- Settles O45: the reply's bytes are the record's fields in order, each read back from its byte or pair of bytes. -/
theorem queryLineReportsTheRecord : Obligations.QueryLineReportsTheRecord := by
  unfold Obligations.QueryLineReportsTheRecord
  intro s i more a b hp hn ha hb l
  obtain ⟨code, reason, other, houtcome⟩ := outcomeBytes_split l.lastOutcome
  have fields : queryLineBytes s i =
      [lineFlags s i, triggerCode (s.pendingOf i), l.generation, code, reason, other,
        BitVec.ofNat 8 l.head, BitVec.ofNat 8 (l.head / 256), BitVec.ofNat 8 l.tail, BitVec.ofNat 8 (l.tail / 256),
        BitVec.ofNat 8 l.fill, BitVec.ofNat 8 (l.fill / 256), BitVec.ofNat 8 l.walkA, BitVec.ofNat 8 (l.walkA / 256),
        BitVec.ofNat 8 l.walkB, BitVec.ofNat 8 (l.walkB / 256)] := by
    simp only [queryLineBytes, leBytes_two]
    rw [houtcome]
    rfl
  refine ⟨_, exec_queryLine_acts hp hn, queryLineBytes_length s i, ?_⟩
  rw [fields]
  refine ⟨lineFlags_toNat ha hb, ?_, rfl, ?_, toNat_leBytes_two _, toNat_leBytes_two _, toNat_leBytes_two _,
    toNat_leBytes_two _, toNat_leBytes_two _⟩
  · show (triggerCode (s.pendingOf i)).toNat = _
    cases s.pendingOf i with
    | none => rfl
    | some t => cases t <;> rfl
  · show [code, reason, other].map BitVec.toNat = _
    rw [← houtcome]
    cases l.lastOutcome with
    | refused reason other =>
      cases reason <;> simp only [CommitOutcome.bytes, List.map_cons, List.map_nil, toNat_ofNat_lineNo] <;> rfl
    | _ => rfl

end Sys2Proof.Machine
end

section
/-! ## The intakes, the arbiter and the memory port

A request enters a list at its back and leaves it, answered, at its front; the memory queue is presented and answered in
its own order; between the two stand the offers, the arbiter's choice and what any take keeps. -/

namespace Sys2Proof.Machine

/-! ### Acceptance and delivery -/

theorem exec_requestAcceptance_accepts {p : Port} {s : State} (hr : s.inReset = false)
    (hroom : (s.intake p).openList.length < Config.openPlaces) (access : Access) (addr : Addr) (size : Size) :
    exec (.requestAcceptance p access addr size) s =
      .next (s.setIntake p ((s.intake p).accept access addr size)) := by
  have accepts : ¬(s.inReset = true ∨ Config.openPlaces ≤ (s.intake p).openList.length) := by
    simp [hr, hroom]
  simp only [exec, execRequestAcceptance, if_neg accepts]

theorem exec_requestAcceptance_waits {p : Port} {s : State}
    (h : s.inReset = true ∨ Config.openPlaces ≤ (s.intake p).openList.length) (access : Access) (addr : Addr)
    (size : Size) : exec (.requestAcceptance p access addr size) s = .next s := by
  simp only [exec, execRequestAcceptance, if_pos h]

theorem firstBytes_toNat (size : Size) (data : Data) :
    (firstBytes size.bytes data).toNat = data.toNat % 2 ^ (8 * size.bytes) :=
  (BitVec.toNat_ofNat ..).trans (Nat.mod_eq_of_lt (Nat.lt_of_le_of_lt (Nat.mod_le _ _) data.isLt))

/-- A port's intake replaced changes the two intakes alone. -/
theorem setIntake_eq (s : State) (p : Port) (it : Intake) :
    s.setIntake p it = { s with portA := (s.setIntake p it).portA, portB := (s.setIntake p it).portB } := by
  cases p <;> rfl

theorem setIntake_intake_self (s : State) (p : Port) : s.setIntake p (s.intake p) = s := by
  cases p <;> rfl

/-- Settles O3: the entry appended is `acceptedEntry`, made of the request and the port's next tag. -/
theorem acceptanceAppendsWaitingEntry : Obligations.AcceptanceAppendsWaitingEntry := by
  unfold Obligations.AcceptanceAppendsWaitingEntry
  intro p access addr size s hr hroom
  refine ⟨_, acceptedEntry (s.intake p).nextTag access addr size,
    exec_requestAcceptance_accepts hr hroom access addr size, ?_, rfl, rfl, rfl, rfl, rfl, ?_, ?_, State.intake_setIntake_other .., setIntake_eq ..⟩
  · rw [State.intake_setIntake_self, Intake.accept]
  · cases access with
    | read => rfl
    | write data => exact ⟨_, rfl, firstBytes_toNat size data⟩
  · rw [State.intake_setIntake_self, Intake.accept]

/-- Settles O4: acceptance asks for both conditions at once. -/
theorem acceptanceWaitsWhileFullOrInReset : Obligations.AcceptanceWaitsWhileFullOrInReset := by
  unfold Obligations.AcceptanceWaitsWhileFullOrInReset
  exact fun p access addr size s h => exec_requestAcceptance_waits h access addr size

theorem exec_answerDelivery (p : Port) (s : State) :
    exec (.answerDelivery p) s = .next (s.setIntake p (s.intake p).deliver) := rfl

theorem presented_of_ready {it : Intake} {e : Entry} {more : List Entry} (hl : it.openList = e :: more)
    (he : e.state = .ready) : it.presented = e.answer := by
  simp only [Intake.presented, hl, he, if_true]

theorem presented_of_not_ready {it : Intake}
    (h : ∀ (e : Entry) (more : List Entry), it.openList = e :: more → e.state ≠ .ready) : it.presented = none := by
  cases hl : it.openList with
  | nil => simp only [Intake.presented, hl]
  | cons e more => simp only [Intake.presented, hl, if_neg (h e more hl)]

theorem deliver_of_ready {it : Intake} {e : Entry} {more : List Entry} (hl : it.openList = e :: more)
    (he : e.state = .ready) : it.deliver = { it with openList := more } := by
  simp only [Intake.deliver, hl, he, if_true]

theorem deliver_of_not_ready {it : Intake}
    (h : ∀ (e : Entry) (more : List Entry), it.openList = e :: more → e.state ≠ .ready) : it.deliver = it := by
  obtain hd | ⟨e, more, hl, hr, -⟩ := deliver_cases it
  · exact hd
  · exact absurd hr (h e more hl)

/-- Settles O5: the pin and the delivery look at the same front entry. -/
theorem deliveryRemovesOnlyAReadyFront : Obligations.DeliveryRemovesOnlyAReadyFront := by
  unfold Obligations.DeliveryRemovesOnlyAReadyFront
  refine ⟨fun p e more s hl he => ⟨presented_of_ready hl he, ?_⟩, fun p s h => ⟨presented_of_not_ready h, ?_⟩⟩
  · rw [exec_answerDelivery, deliver_of_ready hl he]
  · rw [exec_answerDelivery, deliver_of_not_ready h, setIntake_intake_self]

/-! ### Offers and the arbiter -/

/-- The earliest entry in a state, found in its list. -/
theorem find?_state_of_split {l before after : List Entry} {e : Entry} {st : EntryState}
    (hl : l = before ++ e :: after) (he : e.state = st) (hbefore : ∀ x ∈ before, x.state ≠ st) :
    l.find? (fun x => x.state == st) = some e :=
  List.find?_eq_some_iff_append.mpr ⟨by simp [he], before, after, hl, fun x hx => by simp [hbefore x hx]⟩

theorem find?_state_eq_none {l : List Entry} {st : EntryState} (h : ∀ x ∈ l, x.state ≠ st) :
    l.find? (fun x => x.state == st) = none :=
  List.find?_eq_none.mpr fun x hx => by simp [h x hx]

theorem offer_of_parked {it : Intake} (h : ∃ e ∈ it.openList, e.state = .parked) : it.offer = none := by
  obtain ⟨e, he, hp⟩ := h
  have parked : (it.openList.any fun e => e.state == .parked) = true := List.any_eq_true.mpr ⟨e, he, by simp [hp]⟩
  simp only [Intake.offer, parked, if_true]

/-- Without a PARKED entry, a RELEASED entry is offered before any WAITING one. -/
theorem offer_of_not_parked {it : Intake} (h : ∀ e ∈ it.openList, e.state ≠ .parked) :
    it.offer = (it.openList.find? fun e => e.state == .released).or
      (it.openList.find? fun e => e.state == .waiting) := by
  have noneParked : (it.openList.any fun e => e.state == .parked) = false :=
    List.any_eq_false.mpr fun x hx => by simp [h x hx]
  simp only [Intake.offer, noneParked, Bool.false_eq_true, if_false]
  cases it.openList.find? fun e => e.state == .released <;> rfl

/-- Settles O9: each clause says what the two searches of `offer_of_not_parked` find. -/
theorem offerIsTheNextTakeableEntry : Obligations.OfferIsTheNextTakeableEntry := by
  unfold Obligations.OfferIsTheNextTakeableEntry
  refine fun it => ⟨offer_of_parked, fun hparked => ?_⟩
  rw [offer_of_not_parked hparked]
  refine ⟨fun before after e hl he hbefore => ?_, fun hreleased => ?_⟩
  · rw [find?_state_of_split hl he hbefore, Option.some_or]
  · rw [find?_state_eq_none hreleased, Option.none_or]
    exact ⟨fun before after e => find?_state_of_split, find?_state_eq_none⟩

/-- The port that alone is urgent is chosen. -/
theorem arbitrate_of_urgent {g : LineEngine} {p : Port} (hA : g.urgentA = decide (p = .A))
    (hB : g.urgentB = decide (p = .B)) : arbitrate g = p := by
  cases p <;> simp [arbitrate, hA, hB]

/-- Between ports of equal urgency the choice alternates. -/
theorem arbitrate_of_equal {g : LineEngine} (h : g.urgentA = g.urgentB) : arbitrate g = Port.other g.lastChosen := by
  simp [arbitrate, h]

section
variable {s : State} {a b : Entry}

theorem nextTake_of_choice_A (ha : s.portA.offer = some a) (hb : s.portB.offer = some b)
    (hchoice : arbitrate s.engine = .A) : nextTake s = some (.A, a) := by
  simp only [nextTake, ha, hb, hchoice]

theorem nextTake_of_choice_B (ha : s.portA.offer = some a) (hb : s.portB.offer = some b)
    (hchoice : arbitrate s.engine = .B) : nextTake s = some (.B, b) := by
  simp only [nextTake, ha, hb, hchoice]

theorem nextTake_of_A (ha : s.portA.offer = some a) (hb : s.portB.offer = none) : nextTake s = some (.A, a) := by
  simp only [nextTake, ha, hb]

theorem nextTake_of_B (ha : s.portA.offer = none) (hb : s.portB.offer = some b) : nextTake s = some (.B, b) := by
  simp only [nextTake, ha, hb]

theorem nextTake_of_none (ha : s.portA.offer = none) (hb : s.portB.offer = none) : nextTake s = none := by
  simp only [nextTake, ha, hb]

end

/-- Settles O10: where both ports offer, the next take is the arbiter's choice. -/
theorem arbiterChoosesByUrgencyThenAlternation : Obligations.ArbiterChoosesByUrgencyThenAlternation := by
  unfold Obligations.ArbiterChoosesByUrgencyThenAlternation
  refine fun s => ⟨fun a b ha hb => ?_, fun _ => nextTake_of_A, fun _ => nextTake_of_B, nextTake_of_none⟩
  refine ⟨fun hA hB => ?_, fun hA hB => ?_, fun heq hlast => ?_, fun heq hlast => ?_⟩
  · exact nextTake_of_choice_A ha hb (arbitrate_of_urgent hA hB)
  · exact nextTake_of_choice_B ha hb (arbitrate_of_urgent hA hB)
  · exact nextTake_of_choice_B ha hb (by rw [arbitrate_of_equal heq, hlast]; rfl)
  · exact nextTake_of_choice_A ha hb (by rw [arbitrate_of_equal heq, hlast]; rfl)

end Sys2Proof.Machine
end

section
namespace Sys2Proof.Machine

/-! ### What any take keeps -/

/-- What every part of a take keeps, from one state to the next: the last-chosen port, the mode, the staged images, the
mark count, the tick count, the incidents on their way, and the transactions queued, behind which new ones stand that
the memory has not accepted. -/
structure TakeKeeps (s t : State) : Prop where
  lastChosen : t.engine.lastChosen = s.engine.lastChosen
  mode : t.engine.mode = s.engine.mode
  staged : t.commit.staged = s.commit.staged
  markCount : t.commit.markCount = s.commit.markCount
  tickCount : t.tickCount = s.tickCount
  handed : s.handed <+: t.handed
  memQueue : ∃ issued, t.memQueue = s.memQueue ++ issued ∧ ∀ x ∈ issued, x.presented = false

section
variable {s t u : State}

theorem TakeKeeps.of_quiet (lastChosen : t.engine.lastChosen = s.engine.lastChosen)
    (mode : t.engine.mode = s.engine.mode) (staged : t.commit.staged = s.commit.staged)
    (markCount : t.commit.markCount = s.commit.markCount) (tickCount : t.tickCount = s.tickCount)
    (handed : t.handed = s.handed) (memQueue : t.memQueue = s.memQueue) : TakeKeeps s t :=
  ⟨lastChosen, mode, staged, markCount, tickCount, handed ▸ List.prefix_rfl, [], by rw [memQueue, List.append_nil],
    fun _ hx => absurd hx List.not_mem_nil⟩

theorem TakeKeeps.refl (s : State) : TakeKeeps s s := .of_quiet rfl rfl rfl rfl rfl rfl rfl

theorem TakeKeeps.trans (h : TakeKeeps s t) (h' : TakeKeeps t u) : TakeKeeps s u := by
  obtain ⟨first, hfirst, unpresented⟩ := h.memQueue
  obtain ⟨second, hsecond, unpresented'⟩ := h'.memQueue
  refine ⟨h'.lastChosen.trans h.lastChosen, h'.mode.trans h.mode, h'.staged.trans h.staged,
    h'.markCount.trans h.markCount, h'.tickCount.trans h.tickCount, h.handed.trans h'.handed, first ++ second, ?_, ?_⟩
  · rw [hsecond, hfirst, List.append_assoc]
  · exact fun x hx => (List.mem_append.mp hx).elim (unpresented x) (unpresented' x)

/-! One lemma for each operation a take is made of. -/

theorem TakeKeeps.setLine (h : TakeKeeps s t) (i : LineNo) (l : Line) : TakeKeeps s (t.setLine i l) :=
  h.trans (.of_quiet rfl rfl rfl rfl rfl rfl rfl)

theorem TakeKeeps.setPending (h : TakeKeeps s t) (i : LineNo) (tr : Option Trigger) :
    TakeKeeps s (t.setPending i tr) :=
  h.trans (.of_quiet rfl rfl rfl rfl rfl rfl rfl)

theorem TakeKeeps.recomputeUrgency (h : TakeKeeps s t) : TakeKeeps s (recomputeUrgency t) :=
  h.trans (.of_quiet rfl rfl rfl rfl rfl rfl rfl)

theorem TakeKeeps.releaseParked (h : TakeKeeps s t) (i : LineNo) (op : ParkedOp) :
    TakeKeeps s (releaseParked i op t) :=
  h.trans (.of_quiet rfl rfl rfl rfl rfl rfl rfl)

theorem TakeKeeps.releaseByPolicy (h : TakeKeeps s t) (i : LineNo) (d : Image) :
    TakeKeeps s (releaseByPolicy i d t) := by
  rw [releaseByPolicy_eq]
  exact h.trans (.of_quiet rfl rfl rfl rfl rfl rfl rfl)

theorem TakeKeeps.answerEntry (h : TakeKeeps s t) (p : Port) (e : Entry) (status : Status) (data : Data) :
    TakeKeeps s (answerEntry p e status data t) :=
  h.trans (by apply TakeKeeps.of_quiet <;> simp)

theorem TakeKeeps.park (h : TakeKeeps s t) (p : Port) (e : Entry) (due : Option (BitVec 32)) :
    TakeKeeps s (park p e due t) :=
  h.trans (by apply TakeKeeps.of_quiet <;> simp)

theorem TakeKeeps.hand (h : TakeKeeps s t) (source : Source) (x : Incident) : TakeKeeps s (hand source x t) :=
  h.trans ⟨rfl, rfl, rfl, rfl, rfl, List.prefix_append .., (TakeKeeps.refl t).memQueue⟩

theorem TakeKeeps.abandon (h : TakeKeeps s t) (source : Source) (cause : Cause) (which : Entry → Bool) :
    TakeKeeps s (abandon source cause which t) :=
  h.trans ⟨rfl, rfl, rfl, rfl, rfl, by rw [abandon_handed, List.append_assoc]; exact List.prefix_append ..,
    (TakeKeeps.refl t).memQueue⟩

theorem TakeKeeps.issue (h : TakeKeeps s t) (p : Port) (e : Entry) {x : Transaction} (hx : x.presented = false) :
    TakeKeeps s (issue p e x t) :=
  h.trans ⟨by simp, by simp, by simp, by simp, by simp, by simp, [x], issue_memQueue .., by simpa using hx⟩

/-! Commits and the wrap report. -/

theorem TakeKeeps.applyCommit (h : TakeKeeps s t) (source : Source) (i : LineNo) :
    TakeKeeps s (applyCommit source i t) := by
  cases hk : commitKind (t.line i) (t.stagedOf i) with
  | soft =>
    rw [applyCommit_soft_eq hk]
    exact ((h.setPending _ _).setLine _ _).releaseByPolicy _ _ |>.recomputeUrgency
  | hard =>
    rw [applyCommit_hard_eq hk]
    exact ((h.setPending _ _).setLine _ _).abandon _ _ _ |>.recomputeUrgency
  | retiring =>
    rw [applyCommit_retiring_eq hk]
    exact ((h.setPending _ _).setLine _ _).abandon _ _ _ |>.recomputeUrgency

theorem TakeKeeps.dueCommit (h : TakeKeeps s t) (source : Source) (i : LineNo) :
    TakeKeeps s (dueCommit source i t) := by
  unfold Machine.dueCommit
  split
  · exact ((h.setPending _ _).setLine _ _).hand _ _
  · exact h.applyCommit source i

theorem TakeKeeps.reportIfWrapped (h : TakeKeeps s t) (i : LineNo) (wrapped : Bool) :
    TakeKeeps s (reportIfWrapped i wrapped t) := by
  by_cases hw : wrapped = true ∧ t.pendingOf i = some .wrap
  · obtain ⟨rfl, hp⟩ := hw
    rw [reportIfWrapped_due hp]
    exact h.dueCommit .lineEngine i
  · rwa [reportIfWrapped_none hw]

end

/-! The operations of a line. -/

section
variable (due : Option (BitVec 32)) (p : Port) (e : Entry) (i : LineNo) (s : State)

theorem underrun_takeKeeps (k : Nat) : TakeKeeps s (underrun p e i k s) := by
  rw [underrun, answerUnderrun_eq]
  exact ((TakeKeeps.refl s).answerEntry _ _ _ _).hand _ _

theorem accessReference_takeKeeps (k : Nat) (purpose : Purpose) : TakeKeeps s (accessReference p e i k purpose s) := by
  simp only [accessReference]
  split
  · exact (TakeKeeps.refl s).issue p e rfl
  · exact underrun_takeKeeps p e i s k

theorem delayPush_takeKeeps : TakeKeeps s (delayPush p e i s) :=
  ((TakeKeeps.refl s).setLine _ _).issue p e rfl |>.reportIfWrapped _ _

theorem enqueue_takeKeeps : TakeKeeps s (enqueue p e i s) :=
  (((TakeKeeps.refl s).setLine _ _).releaseParked _ _).recomputeUrgency.issue p e rfl |>.reportIfWrapped _ _

theorem displace_takeKeeps : TakeKeeps s (displace p e i s) :=
  (((TakeKeeps.refl s).setLine _ _).releaseParked _ _).issue p e rfl |>.hand _ _ |>.reportIfWrapped _ _

theorem overrun_takeKeeps : TakeKeeps s (overrun due p e i s) := by
  unfold overrun
  split
  · exact ((TakeKeeps.refl s).answerEntry _ _ _ _).hand _ _
  · exact displace_takeKeeps p e i s
  · exact (TakeKeeps.refl s).park p e due
  · exact ((TakeKeeps.refl s).answerEntry _ _ _ _).hand _ _

theorem queuePush_takeKeeps : TakeKeeps s (queuePush due p e i s) := by
  unfold queuePush
  split
  · exact enqueue_takeKeeps p e i s
  · exact overrun_takeKeeps due p e i s

theorem queuePop_takeKeeps : TakeKeeps s (queuePop due p e i s) := by
  unfold queuePop
  split
  · exact (((TakeKeeps.refl s).setLine _ _).releaseParked _ _).recomputeUrgency.issue p e rfl
  · split
    · exact (TakeKeeps.refl s).park p e due
    · exact underrun_takeKeeps p e i s 0

theorem queueDiscard_takeKeeps : TakeKeeps s (queueDiscard p e i s) := by
  refine TakeKeeps.answerEntry ?_ p e .okay 0
  split
  · exact .refl s
  · exact (((TakeKeeps.refl s).setLine _ _).releaseParked _ _).recomputeUrgency

theorem performOp_takeKeeps (op : LineOp) : TakeKeeps s (performOp due p e i op s) := by
  cases op with
  | push =>
    simp only [performOp]
    split
    · exact queuePush_takeKeeps due p e i s
    · exact delayPush_takeKeeps p e i s
  | pop => exact queuePop_takeKeeps due p e i s
  | newestRead | tapRead k | tapPeek k | tapAmend k => exact accessReference_takeKeeps p e i s _ _
  | walkRead | walkPeek | walkAmend => exact (accessReference_takeKeeps p e i s _ _).setLine _ _
  | levelRead | generationRead => exact (TakeKeeps.refl s).answerEntry p e .okay _
  | discard => exact queueDiscard_takeKeeps p e i s

theorem performDecoded_takeKeeps (d : Decoded) : TakeKeeps s (performDecoded due p e d s) := by
  cases d with
  | plain => exact (TakeKeeps.refl s).issue p e rfl
  | operation i op => exact performOp_takeKeeps due p e i s op
  | refused how charged => exact ((TakeKeeps.refl s).answerEntry p e .error 0).hand _ _

end

theorem execTake_waits {s : State} (h : s.inReset = true ∨ Config.memPlaces ≤ s.memQueue.length ∨ nextTake s = none) :
    execTake s = .next s := by
  obtain hn | ⟨p, e, ⟨hr, hroom, hnext, -⟩, -⟩ := execTake_cases s
  · exact hn
  · obtain h | h | h := h
    · exact absurd (hr.symm.trans h) Bool.false_ne_true
    · exact absurd hroom (Nat.not_lt.mpr h)
    · exact absurd (hnext.symm.trans h) (Option.some_ne_none _)

/-- The transactions of a take are those of the taken entry's fate: none, or one that names the entry. -/
theorem TakeEnds.issued {s t : State} {p : Port} {e : Entry} {d : Decoded} (h : TakeEnds s p e d t) :
    t.memQueue = s.memQueue
      ∨ ∃ x : Transaction, x.origin = some { port := p, tag := e.tag } ∧ t.memQueue = s.memQueue ++ [x] := by
  obtain ⟨u, i, ⟨_, _, _, -, ⟨-, ⟨_, _, issued, fate, -, hm⟩, -⟩, -⟩, ends⟩ := h
  have htu : t.memQueue = u.memQueue := by
    obtain rfl | ⟨-, rfl⟩ := ends
    · rfl
    · exact (dueCommit_leaves .lineEngine i u).memQueue
  rw [htu, hm]
  cases fate with
  | issues x origin => exact .inr ⟨x, origin, rfl⟩
  | answers | parks => exact .inl (List.append_nil _)

/-- Settles O11: `TakeEnds` bounds the transactions of a take, and every operation it can carry out keeps the rest
(`TakeKeeps`). -/
theorem everyTakeIsBounded : Obligations.EveryTakeIsBounded := by
  unfold Obligations.EveryTakeIsBounded
  refine ⟨fun s h => execTake_waits h, fun s p e d ht => ?_⟩
  have take := execTake_takes ht
  obtain ⟨-, -, -, rfl⟩ := ht
  have ends := takeEntry_ends s p e
  have outside : SameOutside s (takeEntry p e s) := execTake_outside take
  have keeps := performDecoded_takeKeeps (deadlineIfParked s p e (decodeTaken s e)) p e
    (beginTake p e (decodeTaken s e) s) (decodeTaken s e)
  rw [← takeEntry] at keeps
  obtain ⟨hlast, hmode, hstaged, hmark, htick, ⟨more, hhanded⟩, issued, hissued, unpresented⟩ := keeps
  simp only [beginTake_engine, beginTake_commit, beginTake_tickCount, beginTake_handed, beginTake_memQueue]
    at hlast hmode hstaged hmark htick hhanded hissued
  refine ⟨takeEntry p e s, take, hlast, hmode, ?_, ⟨more, hhanded.symm⟩, hstaged, hmark, outside.incidents,
    outside.link, htick, outside.porstnLow, outside.sysrstnLow⟩
  refine ends.issued.imp_right fun ⟨x, origin, hx⟩ => ⟨x, origin, unpresented x ?_, hx⟩
  rw [List.append_cancel_left (hissued.symm.trans hx)]
  exact List.mem_singleton_self x

end Sys2Proof.Machine
end

section
namespace Sys2Proof.Machine

/-! ### Presenting transactions and the memory's answers -/

/-- Presenting passes over the transactions the memory has accepted. -/
theorem presentOldest_of_split {before after : List Transaction} {x : Transaction}
    (hbefore : ∀ y ∈ before, y.presented = true) (hx : x.presented = false) :
    presentOldest (before ++ x :: after) = before ++ { x with presented := true } :: after := by
  induction before with
  | nil => simp only [List.nil_append, presentOldest, hx, Bool.false_eq_true, if_false]
  | cons y more ih =>
    have hy : y.presented = true := hbefore y List.mem_cons_self
    have hmore := ih fun z hz => hbefore z (List.mem_cons_of_mem y hz)
    simp only [List.cons_append, presentOldest, hy, if_true, hmore]

/-- Settles O31: the pin and the command find the same transaction, the first that is not presented. -/
theorem presentingGoesInQueueOrder : Obligations.PresentingGoesInQueueOrder := by
  unfold Obligations.PresentingGoesInQueueOrder
  intro s before after x hm hbefore hx
  refine ⟨?_, ?_⟩
  · exact List.find?_eq_some_iff_append.mpr
      ⟨by simp [hx], before, after, hm, fun y hy => by simp [hbefore y hy]⟩
  · simp only [exec, execPresentTransaction, hm, presentOldest_of_split hbefore hx]

theorem exec_memoryAnswer_nil {s : State} (hm : s.memQueue = []) (status : Status) (data : Data) :
    exec (.memoryAnswer status data) s = .next s := by
  simp only [exec, execMemoryAnswer, hm]

section
variable {s : State} {x : Transaction} {more : List Transaction} (hm : s.memQueue = x :: more)
include hm

theorem exec_memoryAnswer_discards (ho : x.origin = none) (status : Status) (data : Data) :
    exec (.memoryAnswer status data) s = .next { s with memQueue := more } := by
  simp only [exec, execMemoryAnswer, hm, ho]

theorem exec_memoryAnswer_answers {o : Origin} (ho : x.origin = some o) (status : Status) (data : Data) :
    exec (.memoryAnswer status data) s = .next (answerOrigin x o status data { s with memQueue := more }) := by
  simp only [exec, execMemoryAnswer, hm, ho]

end

/-- Settles O33: the answer looks at the queue, and then at the origin, before anything else. -/
theorem answersWithoutOriginAreDiscarded : Obligations.AnswersWithoutOriginAreDiscarded := by
  unfold Obligations.AnswersWithoutOriginAreDiscarded
  exact ⟨fun _ _ _ status data hm ho => exec_memoryAnswer_discards hm ho status data,
    fun _ status data hm => exec_memoryAnswer_nil hm status data⟩

/-- An entry changed by its tag, the only one of its list that has it. -/
theorem updateEntries_of_split {before after : List Entry} {e : Entry} {tag : Nat} (f : Entry → Entry)
    (htag : e.tag = tag) (hothers : ∀ y ∈ before ++ after, y.tag ≠ tag) :
    updateEntries tag f (before ++ e :: after) = before ++ f e :: after := by
  have stays : ∀ l : List Entry, (∀ y ∈ l, y.tag ≠ tag) → updateEntries tag f l = l :=
    fun l h => (List.map_congr_left fun y hy => if_neg (h y hy)).trans (List.map_id' l)
  calc updateEntries tag f (before ++ e :: after)
      = updateEntries tag f before ++ f e :: updateEntries tag f after := by simp [updateEntries, htag]
    _ = before ++ f e :: after := by
      rw [stays before fun y hy => hothers y (List.mem_append_left _ hy),
        stays after fun y hy => hothers y (List.mem_append_right _ hy)]

theorem originEntry_of_split {s : State} {o : Origin} {before after : List Entry} {e : Entry}
    (hl : (s.intake o.port).openList = before ++ e :: after) (htag : e.tag = o.tag)
    (hothers : ∀ y ∈ before ++ after, y.tag ≠ o.tag) : originEntry s o = some e :=
  List.find?_eq_some_iff_append.mpr
    ⟨by simp [htag], before, after, hl, fun y hy => by simp [hothers y (List.mem_append_left _ hy)]⟩

theorem answerOrigin_okay {s : State} {x : Transaction} {o : Origin} {e : Entry} {data : Data}
    (h : originEntry s o = some e) : answerOrigin x o .okay data s = answerEntry o.port e .okay data s := by
  simp only [answerOrigin, h]

theorem answerOrigin_error {s : State} {x : Transaction} {o : Origin} {e : Entry} {data : Data}
    (h : originEntry s o = some e) :
    answerOrigin x o .error data s =
      setSuspect x.line
        (hand .memoryPort (memfaultIncident x o.port e) (answerEntry o.port e .error data s)) := by
  simp only [answerOrigin, h, memoryFault]

/-- The suspect flag is in the line table, so setting it changes the line engine alone. -/
theorem setSuspect_eq (line : Option LineNo) (s : State) :
    setSuspect line s = { s with engine := (setSuspect line s).engine } := by
  obtain h | ⟨i, -, h⟩ := setSuspect_cases line s
  · rw [h]
  · rw [h]
    rfl

theorem setSuspect_engine_congr {line : Option LineNo} {s t : State} (h : t.engine = s.engine) :
    (setSuspect line t).engine = (setSuspect line s).engine := by
  have hline : ∀ i, t.line i = s.line i := fun i => by rw [State.line, h, State.line]
  cases line with
  | none => exact h
  | some i =>
    simp only [setSuspect, hline]
    split <;> simp [State.setLine, h]

theorem setSuspect_some_engine (i : LineNo) (s : State) :
    (setSuspect (some i) s).engine =
      if (s.line i).isLive then { s.engine with lines := s.engine.lines.set i { s.line i with suspect := true } }
      else s.engine := by
  simp only [setSuspect]
  split <;> rfl

section
variable {s : State} {x : Transaction} {o : Origin} {e : Entry} (h : originEntry s o = some e)
include h

theorem answerOrigin_intake (status : Status) (data : Data) (q : Port) :
    (answerOrigin x o status data s).intake q = (answerEntry o.port e status data s).intake q := by
  cases status with
  | okay => rw [answerOrigin_okay h]
  | error => rw [answerOrigin_error h, setSuspect_intake, hand_intake]

/-- The answer of a memory changes the intakes, the incidents on their way and the line table alone. -/
theorem answerOrigin_eq (status : Status) (data : Data) :
    let t := answerOrigin x o status data s
    t = { s with portA := t.portA, portB := t.portB, handed := t.handed, engine := t.engine } := by
  intro t
  cases status with
  | okay =>
    simp only [t, answerOrigin_okay h]
    apply State.eq_of_fields <;> simp
  | error =>
    simp only [t, answerOrigin_error h]
    rw [setSuspect_eq]
    apply State.eq_of_fields <;> simp

end

/-- Settles O32: the origin is the one entry with its tag, and an ERROR hands MEMFAULT and sets the flag besides. -/
theorem memoryAnswerMakesTheOriginReady : Obligations.MemoryAnswerMakesTheOriginReady := by
  unfold Obligations.MemoryAnswerMakesTheOriginReady
  intro s x more o before after e status data hm ho hl htag hothers
  have intake : ∀ q, ({ s with memQueue := more } : State).intake q = s.intake q := fun q => by cases q <;> rfl
  have origin : originEntry { s with memQueue := more } o = some e :=
    originEntry_of_split ((congrArg Intake.openList (intake o.port)).trans hl) htag hothers
  refine ⟨_, exec_memoryAnswer_answers hm ho status data, ?_, ?_, ?_, ?_, ?_, ?_⟩
  · rw [answerOrigin_eq origin]
  · rw [answerOrigin_intake origin, answerEntry, intake_updateEntry, if_pos rfl, intake, hl,
      updateEntries_of_split _ rfl fun y hy => htag ▸ hothers y hy]
    cases ha : e.access <;> cases status <;> simp [Entry.answered, formAnswer, ha]
  · rw [answerOrigin_intake origin, answerEntry, intake_updateEntry, if_neg (Port.other_ne o.port), intake]
  · cases status with
    | okay => simp [answerOrigin_okay origin]
    | error =>
      rw [answerOrigin_error origin, setSuspect_eq]
      simp [memfaultIncident]
  · cases status with
    | okay => simp [answerOrigin_okay origin]
    | error =>
      rw [answerOrigin_error origin, setSuspect_engine_congr (s := s) (by simp)]
      cases x.line with
      | none => rfl
      | some i => exact setSuspect_some_engine i s
  · rw [answerOrigin_eq origin]

end Sys2Proof.Machine
end

section
/-! ## The image checks -/

namespace Sys2Proof.Machine

/-- The first element of a list rising in `key` that passes a test is the passing element of least `key`. -/
theorem find?_eq_some_iff_of_rising {α : Type} {key : α → Nat} {test : α → Bool} :
    ∀ {l : List α} {x : α}, l.Pairwise (key · < key ·) →
      (l.find? test = some x ↔ x ∈ l ∧ test x = true ∧ ∀ y ∈ l, key y < key x → test y = false)
  | [], x, _ => by simp
  | a :: more, x, hp => by
    obtain ⟨ha, hmore⟩ := List.pairwise_cons.mp hp
    cases hta : test a with
    | true =>
      have lowest : (∀ y ∈ a :: more, key y < key x → test y = false) → ¬key a < key x := fun h hlt => by
        simpa [hta] using h a (List.mem_cons_self ..) hlt
      rw [List.find?_cons_of_pos hta, Option.some.injEq]
      constructor
      · rintro rfl
        refine ⟨List.mem_cons_self .., hta, fun y hy hlt => ?_⟩
        obtain rfl | hy := List.mem_cons.mp hy
        · exact absurd hlt (lt_irrefl _)
        · exact absurd hlt (Nat.lt_asymm (ha y hy))
      · rintro ⟨hx, -, hlow⟩
        obtain rfl | hx := List.mem_cons.mp hx
        · rfl
        · exact absurd (ha x hx) (lowest hlow)
    | false =>
      rw [List.find?_cons_of_neg (by simp [hta]), find?_eq_some_iff_of_rising hmore]
      constructor
      · rintro ⟨hx, htx, hlow⟩
        refine ⟨List.mem_cons_of_mem _ hx, htx, fun y hy hlt => ?_⟩
        obtain rfl | hy := List.mem_cons.mp hy
        · exact hta
        · exact hlow y hy hlt
      · rintro ⟨hx, htx, hlow⟩
        obtain rfl | hx := List.mem_cons.mp hx
        · rw [hta] at htx
          cases htx
        · exact ⟨hx, htx, fun y hy => hlow y (List.mem_cons_of_mem _ hy)⟩

theorem fieldChecks_rising (d : Image) : (fieldChecks d).Pairwise (·.1 < ·.1) := by
  unfold fieldChecks
  dsimp only
  split <;> simp

/-- A known kind's failing checks are the fields out of range, offset by offset (R121). -/
theorem mem_fieldChecks_iff {d : Image} (hk : d.kind ≤ 2) (offset : Nat) :
    (offset, false) ∈ fieldChecks d ↔ d.fieldOut offset := by
  obtain h | h | h : d.kind = 0 ∨ d.kind = 1 ∨ d.kind = 2 := by omega
  all_goals
    unfold Image.fieldOut
    split <;> simp [fieldChecks, Image.isNone, Image.isQueue, h]
  all_goals grind

/-- For an unknown kind the kind byte alone is examined (R121). -/
theorem fieldChecks_of_unknown_kind {d : Image} (hk : 2 < d.kind) : fieldChecks d = [(0, false)] := by
  have h0 : d.kind ≠ 0 := by omega
  have h : ¬(d.kind = 1 ∨ d.kind = 2) := by omega
  simp [fieldChecks, h, Image.isNone, h0]

theorem firstBadField_eq_some_iff (d : Image) (offset : Nat) :
    firstBadField d = some offset ↔ d.fieldOut offset ∧ ∀ q : Nat, q < offset → ¬d.fieldOut q := by
  by_cases hk : d.kind ≤ 2
  · have found : firstBadField d = some offset ↔ (fieldChecks d).find? (fun c => !c.2) = some (offset, false) := by
      unfold firstBadField
      cases h : (fieldChecks d).find? fun c => !c.2 with
      | none => simp
      | some c =>
        have hc : c.2 = false := by simpa using List.find?_some h
        simp [Prod.ext_iff, hc]
    rw [found, find?_eq_some_iff_of_rising (key := Prod.fst) (fieldChecks_rising d), mem_fieldChecks_iff hk]
    refine and_congr_right fun _ => ⟨fun h q hq hout => ?_, fun h => ⟨rfl, fun c hc hlt => ?_⟩⟩
    · exact absurd (h.2 (q, false) ((mem_fieldChecks_iff hk q).mpr hout) hq) (by simp)
    · obtain ⟨q, ok⟩ := c
      cases ok with
      | true => rfl
      | false => exact absurd ((mem_fieldChecks_iff hk q).mp hc) (h q hlt)
  · have out : d.fieldOut 0 := Nat.lt_of_not_le hk
    have first : firstBadField d = some 0 := by
      rw [firstBadField, fieldChecks_of_unknown_kind (Nat.lt_of_not_le hk)]
      rfl
    rw [first, Option.some.injEq]
    refine ⟨fun h => h ▸ ⟨out, fun q hq => absurd hq (Nat.not_lt_zero q)⟩, fun ⟨_, h⟩ => ?_⟩
    by_contra hne
    exact h 0 (Nat.pos_of_ne_zero fun h0 => hne h0.symm) out

theorem firstBadField_eq_none_iff (d : Image) : firstBadField d = none ↔ ∀ q : Nat, ¬d.fieldOut q := by
  constructor
  · intro h q hq
    classical
    have hex : ∃ q, d.fieldOut q := ⟨q, hq⟩
    have first := (firstBadField_eq_some_iff d (Nat.find hex)).mpr ⟨Nat.find_spec hex, fun _ hlt => Nat.find_min hex hlt⟩
    rw [h] at first
    cases first
  · intro h
    cases hf : firstBadField d with
    | none => rfl
    | some offset => exact absurd ((firstBadField_eq_some_iff d offset).mp hf).1 (h offset)

theorem geometryFits_iff (d : Image) : geometryFits d = true ↔ d.Fits := by
  rw [geometryFits, decide_eq_true_iff]
  exact Iff.rfl

/-- Two ranges meet exactly where they have a byte in common. -/
theorem Span.meets_iff (a b : Span) :
    Span.meets a b = true ↔ ∃ x : Nat, (a.low ≤ x ∧ x < a.high) ∧ (b.low ≤ x ∧ x < b.high) := by
  rw [Span.meets, decide_eq_true_iff]
  constructor
  · intro h
    exact ⟨max a.low b.low, by omega, by omega⟩
  · rintro ⟨x, ha, hb⟩
    omega

theorem selfDisjoint_eq_false_iff (d : Image) : selfDisjoint d = false ↔ d.OverlapsItself := by
  rw [selfDisjoint, Bool.not_eq_false']
  exact Span.meets_iff _ _

/-- ARM's steps 4 to 6 in their order, in the terms of R121 and R122. -/
theorem imageFault_cases (d : Image) :
    (∃ offset, imageFault d = some (.field offset) ∧ firstBadField d = some offset)
      ∨ (firstBadField d = none
        ∧ ((imageFault d = none ∧ d.kind = 0)
          ∨ (imageFault d = some .geometry ∧ d.kind ≠ 0 ∧ ¬d.Fits)
          ∨ (imageFault d = some .selfOverlap ∧ d.kind ≠ 0 ∧ d.Fits ∧ d.OverlapsItself)
          ∨ (imageFault d = none ∧ d.kind ≠ 0 ∧ d.Fits ∧ ¬d.OverlapsItself))) := by
  have isNone : d.isNone = true ↔ d.kind = 0 := by simp [Image.isNone]
  unfold imageFault
  cases hf : firstBadField d with
  | some offset => exact .inl ⟨offset, rfl, rfl⟩
  | none =>
    refine .inr ⟨rfl, ?_⟩
    simp only [← geometryFits_iff, ← selfDisjoint_eq_false_iff, ← isNone, ne_eq]
    cases d.isNone <;> cases geometryFits d <;> cases selfDisjoint d <;> simp

/-- Settles O41: the first failing check is the least offset out of range, and the checks exclude each other. -/
theorem imageChecksAreTheFieldRanges : Obligations.ImageChecksAreTheFieldRanges := by
  unfold Obligations.ImageChecksAreTheFieldRanges
  intro d
  simp only [← firstBadField_eq_some_iff, ← firstBadField_eq_none_iff]
  obtain ⟨offset, h, hf⟩ | ⟨hf, ⟨h, hk⟩ | ⟨h, hk, hg⟩ | ⟨h, hk, hg, ho⟩ | ⟨h, hk, hg, ho⟩⟩ := imageFault_cases d
  all_goals simp [*]

end Sys2Proof.Machine
end

section
/-! ## STAGE, ARM and DISARM -/

namespace Sys2Proof.Machine

/-! ### STAGE -/

theorem exec_stage (rest : List Byte) (s : State) :
    exec (.stage rest) s = .next (lineFrame .stage rest stageLine s) := rfl

/-- A STAGE frame of 4 + count bytes acts on the line it names. -/
theorem exec_stage_acts {s : State} {i : LineNo} {offset count : Byte} {data : List Byte} (hp : s.porstnLow = false)
    (hd : data.length = count.toNat) (hc : count.toNat ≤ 36) :
    exec (.stage (lineNoByte i :: offset :: count :: data)) s =
      .next (reply (stageLine i (offset :: count :: data)
        (shiftFrame (0x10 :: lineNoByte i :: offset :: count :: data) s))) := by
  rw [exec_stage, lineFrame_acts hp (by simp [Config.frameMax]; omega) (by simp [LinkCode.lengthOk]; omega)
    (lineOfByte_lineNoByte i)]
  rfl

section
variable {i : LineNo} {offset count : Byte} {data : List Byte} {s : State}

theorem stageLine_busy (pending : s.pendingOf i ≠ none) :
    stageLine i (offset :: count :: data) s = (s, statusOnly .busy) := by
  simp [stageLine, Option.isSome_iff_ne_none.mpr pending]

theorem stageLine_invalid (idle : s.pendingOf i = none) (hr : count.toNat = 0 ∨ 32 < offset.toNat + count.toNat) :
    stageLine i (offset :: count :: data) s = (s, statusOnly .invalid) := by
  simp [stageLine, idle, hr]

theorem stageLine_writes (idle : s.pendingOf i = none) (h1 : 1 ≤ count.toNat)
    (h32 : offset.toNat + count.toNat ≤ 32) (hd : data.length = count.toNat) :
    stageLine i (offset :: count :: data) s =
      (s.setStaged i ((s.stagedOf i).write offset.toNat data), okWith []) := by
  have hr : ¬(count.toNat = 0 ∨ 32 < offset.toNat + count.toNat) := by omega
  simp [stageLine, idle, hr, List.take_of_length_le hd.le]

end

/-- Bytes written into an image are read back at their offsets, and every other byte is kept. -/
theorem Image.getElem?_toList_write (k : Nat) : ∀ (data : List Byte) (d : Image) (offset : Nat),
    offset + data.length ≤ 32 →
      (d.write offset data).toList[k]? =
        if offset ≤ k ∧ k < offset + data.length then data[k - offset]? else d.toList[k]?
  | [], d, offset, _ => by
    have hk : ¬(offset ≤ k ∧ k < offset) := by omega
    simp [Image.write, hk]
  | b :: more, d, offset, h => by
    rw [List.length_cons] at h ⊢
    have written : ({ bytes := d.bytes.setIfInBounds offset b } : Image).toList = d.toList.set offset b :=
      Vector.toList_setIfInBounds ..
    rw [Image.write, Image.getElem?_toList_write k more _ (offset + 1) (by omega), written]
    by_cases hk : k = offset
    · subst hk
      have hlt : k < d.toList.length := by simp [Image.toList]; omega
      simp [hlt]
    · have hset : (d.toList.set offset b)[k]? = d.toList[k]? := List.getElem?_set_ne (Ne.symm hk)
      rw [hset]
      by_cases hlt : k < offset
      · rw [if_neg (by omega), if_neg (by omega)]
      · have hindex : k - offset = (k - (offset + 1)) + 1 := by omega
        rw [hindex, List.getElem?_cons_succ]
        exact if_congr (by omega) rfl rfl

/-- Settles O43: the frame is 4 + count bytes long and names its line, so STAGE acts. -/
theorem stageWritesItsBytesUnlessPending : Obligations.StageWritesItsBytesUnlessPending := by
  unfold Obligations.StageWritesItsBytesUnlessPending
  intro s i offset count data hp hd hc frame
  have acts := exec_stage_acts (i := i) (offset := offset) hp hd hc
  refine ⟨fun pending => ?_, fun idle hr => ?_, fun idle h1 h32 => ⟨_, acts, ?_⟩⟩
  · rw [acts, stageLine_busy (by rwa [shiftFrame_pendingOf])]
    rfl
  · rw [acts, stageLine_invalid (by rwa [shiftFrame_pendingOf]) hr]
    rfl
  · rw [stageLine_writes (by rwa [shiftFrame_pendingOf]) h1 h32 hd, reply]
    refine ⟨fun k => ?_, fun j hj => ?_, rfl⟩
    · rw [setHeld_stagedOf, State.stagedOf_setStaged_self, shiftFrame_stagedOf,
        Image.getElem?_toList_write k data _ _ (by omega), hd]
    · rw [setHeld_stagedOf, State.stagedOf_setStaged_ne _ _ hj, shiftFrame_stagedOf]

/-! ### DISARM -/

theorem exec_disarm (rest : List Byte) (s : State) :
    exec (.disarm rest) s = .next (lineFrame .disarm rest disarmLine s) := rfl

theorem disarmLine_armed {i : LineNo} {args : List Byte} {s : State} (pending : s.pendingOf i ≠ none) :
    disarmLine i args s = (setOutcome i .cancelled (s.setPending i none), okWith []) := by
  simp [disarmLine, cancelPending, Option.isSome_iff_ne_none.mpr pending]

theorem disarmLine_notarmed {i : LineNo} {args : List Byte} {s : State} (idle : s.pendingOf i = none) :
    disarmLine i args s = (s, statusOnly .notarmed) := by
  simp [disarmLine, idle]

/-- Settles O42: the frame is long enough and names its line, so DISARM acts. -/
theorem disarmCancelsThePendingCommit : Obligations.DisarmCancelsThePendingCommit := by
  unfold Obligations.DisarmCancelsThePendingCommit
  intro s i more hp hn
  have acts : exec (.disarm (lineNoByte i :: more)) s =
      .next (reply (disarmLine i more (shiftFrame (0x14 :: lineNoByte i :: more) s))) := by
    rw [exec_disarm, lineFrame_acts hp (by simpa [Config.frameMax] using hn) (by simp [LinkCode.lengthOk])
      (lineOfByte_lineNoByte i)]
    rfl
  refine ⟨fun pending => ?_, fun idle => ?_⟩
  · rw [acts, disarmLine_armed (by rwa [shiftFrame_pendingOf])]
    rfl
  · rw [acts, disarmLine_notarmed (by rwa [shiftFrame_pendingOf])]
    rfl

/-! ### ARM -/

/-- An ARM frame of 3 to 40 bytes acts on the line it names. -/
theorem exec_arm_acts {s : State} {i : LineNo} {code : Byte} {more : List Byte} {answer : State × Held}
    (hp : s.porstnLow = false) (hn : more.length ≤ 37)
    (act : armLine i (code :: more) (shiftFrame (0x13 :: lineNoByte i :: code :: more) s) = answer) :
    exec (.arm (lineNoByte i :: code :: more)) s = .next (reply answer) := by
  rw [exec_arm, lineFrame_acts hp (by simpa [Config.frameMax] using hn) (by simp [LinkCode.lengthOk])
    (lineOfByte_lineNoByte i)]
  exact congrArg (fun r => Host.Outcome.next (reply r)) act

/-- Every code up to 2 names a trigger, and only 0x01 names WRAP (R156). -/
theorem armTrigger_of_le {code : Byte} (h : code.toNat ≤ 2) :
    ∃ t : ArmTrigger, armTrigger code = some t ∧ (t = .pend .wrap → code = 0x01) := by
  obtain rfl | rfl | rfl : code = 0x00 ∨ code = 0x01 ∨ code = 0x02 := by bv_omega
  · exact ⟨.pend .mark, rfl, fun h => by cases h⟩
  · exact ⟨.pend .wrap, rfl, fun _ => rfl⟩
  · exact ⟨.immediate, rfl, fun h => by cases h⟩

theorem armTrigger_eq_none {code : Byte} (h : 2 < code.toNat) : armTrigger code = none := by
  unfold armTrigger
  split
  case h_4 => rfl
  all_goals omega

section
variable {i : LineNo} {code : Byte} {more : List Byte} {s : State}

theorem armLine_busy (pending : s.pendingOf i ≠ none) : armLine i (code :: more) s = (s, statusOnly .busy) := by
  simp [armLine, Option.isSome_iff_ne_none.mpr pending]

theorem armLine_badtrigger (idle : s.pendingOf i = none)
    (h : 2 < code.toNat ∨ (code = 0x01 ∧ (s.line i).isLive = false)) :
    armLine i (code :: more) s = (s, statusOnly .badtrigger) := by
  obtain h | ⟨rfl, hl⟩ := h
  · simp [armLine, idle, armTrigger_eq_none h]
  · simp [armLine, idle, armTrigger, hl]

theorem armLine_notlive (idle : s.pendingOf i = none) (hcode : code = 0x00 ∨ code = 0x02)
    (hk : (s.stagedOf i).kind = 0) (hl : (s.line i).isLive = false) :
    armLine i (code :: more) s = (s, statusOnly .notlive) := by
  obtain rfl | rfl := hcode <;> simp [armLine, idle, armTrigger, Image.isNone, hk, hl]

/-- Where no commit is pending and R120's steps on the trigger and the line pass, the image checks decide. -/
theorem armLine_checked (idle : s.pendingOf i = none) {t : ArmTrigger} (ht : armTrigger code = some t)
    (live : t = .pend .wrap ∨ (s.stagedOf i).kind = 0 → (s.line i).isLive = true) :
    (∀ fault : ImageFault, imageFault (s.stagedOf i) = some fault →
        armLine i (code :: more) s = (s, fault.held))
      ∧ (imageFault (s.stagedOf i) = none → armLine i (code :: more) s = armAccepted i t s) := by
  have trigger : ¬(t = .pend .wrap ∧ (s.line i).isLive = false) := fun ⟨h, hl⟩ => by
    simp [live (.inl h)] at hl
  have retires : ¬((s.stagedOf i).isNone = true ∧ (s.line i).isLive = false) := fun ⟨h, hl⟩ => by
    simp [live (.inr (by simpa [Image.isNone] using h))] at hl
  have code : armTrigger (((code :: more)[0]?).getD 0) = some t := ht
  unfold armLine
  rw [idle, code]
  simp only [Option.isSome_none, Bool.false_eq_true, if_false, if_neg trigger, if_neg retires]
  exact ⟨fun fault h => by rw [h], fun h => by rw [h]⟩

end

/-- Settles O40: in R120's order, each check that fails replies and leaves the state that the frame left. -/
theorem armChecksStandInTheirOrder : Obligations.ArmChecksStandInTheirOrder := by
  unfold Obligations.ArmChecksStandInTheirOrder
  intro s i code more hp hn replies
  refine ⟨fun pending => ?_, fun idle => ⟨fun h => ?_, fun hcode hk hl => ?_, fun hcode live fault hf => ?_⟩⟩
  · exact (exec_arm_acts hp hn (armLine_busy (s := shiftFrame _ s) pending)).trans rfl
  · exact (exec_arm_acts hp hn (armLine_badtrigger (s := shiftFrame _ s) idle h)).trans rfl
  · exact (exec_arm_acts hp hn (armLine_notlive (s := shiftFrame _ s) idle hcode hk hl)).trans rfl
  · obtain ⟨t, ht, wrap⟩ := armTrigger_of_le hcode
    have checked := armLine_checked (s := shiftFrame (0x13 :: lineNoByte i :: code :: more) s) (more := more) idle ht
      fun h => live (h.imp_left wrap)
    refine (exec_arm_acts hp hn (checked.1 fault hf)).trans ?_
    cases fault <;> rfl

/-- Settles O37: with the checks passed, MARK and WRAP both pend. -/
theorem armMakesTheCommitPending : Obligations.ArmMakesTheCommitPending := by
  unfold Obligations.ArmMakesTheCommitPending
  intro s i t code more hp hn idle image live hcode
  have ht : armTrigger code = some (.pend t) ∧ (t = .wrap → (s.line i).isLive = true) := by
    obtain ⟨rfl, rfl⟩ | ⟨rfl, rfl, hl⟩ := hcode
    · exact ⟨rfl, fun h => by cases h⟩
    · exact ⟨rfl, fun _ => hl⟩
  have checked := armLine_checked (s := shiftFrame (0x13 :: lineNoByte i :: code :: more) s) (more := more) idle ht.1
    fun h => h.elim (fun h => ht.2 (ArmTrigger.pend.inj h)) live
  exact (exec_arm_acts hp hn (checked.2 image)).trans rfl

end Sys2Proof.Machine
end

section
/-! ## The mark -/

namespace Sys2Proof.Machine

/-! ### What a due commit leaves -/

/-- The record of a line whose commit has been dealt with: applied, with the walk cursors 0 and the generation advanced,
or refused and kept but for its outcome (R131, R133). -/
def Line.DealtWith (l l' : Line) : Prop :=
  (l'.generation = l.generation + 1 ∧ l'.walkA = 0 ∧ l'.walkB = 0
      ∧ (l'.lastOutcome = .appliedSoft ∨ l'.lastOutcome = .appliedHard))
    ∨ ∃ (reason : ClashReason) (j : LineNo), l' = { l with lastOutcome := .refused reason j }

/-- What dealing with commits changes at most: the intakes, the line table and the urgencies, the pending commits, and
the incidents on their way. -/
structure CommitFrame (s t : State) : Prop where
  markCount : t.commit.markCount = s.commit.markCount
  staged : t.commit.staged = s.commit.staged
  mode : t.engine.mode = s.engine.mode
  lastChosen : t.engine.lastChosen = s.engine.lastChosen
  rest : t = { s with
    portA := t.portA, portB := t.portB, engine := t.engine, commit := t.commit, handed := t.handed }

theorem CommitFrame.refl (s : State) : CommitFrame s s := ⟨rfl, rfl, rfl, rfl, rfl⟩

theorem CommitFrame.trans {s t u : State} (h : CommitFrame s t) (h' : CommitFrame t u) : CommitFrame s u where
  markCount := h'.markCount.trans h.markCount
  staged := h'.staged.trans h.staged
  mode := h'.mode.trans h.mode
  lastChosen := h'.lastChosen.trans h.lastChosen
  rest := by
    have rest' := h'.rest
    rw [h.rest] at rest'
    exact rest'

/-- `t` is `s` with the commit of line `i` dealt with: only that line's record and pending commit change, within the
frame of commits. -/
structure CommitEnds (s t : State) (i : LineNo) : Prop where
  record : (s.line i).DealtWith (t.line i)
  line : ∀ j : LineNo, j ≠ i → t.line j = s.line j
  pendingOf : ∀ j : LineNo, t.pendingOf j = if j = i then none else s.pendingOf j
  frame : CommitFrame s t

/-- What the accessor reads of a line table with one record replaced, whatever else of the engine has changed. -/
theorem line_of_lines {s t : State} {i : LineNo} {l : Line} (h : t.engine.lines = s.engine.lines.set i l) (j : LineNo) :
    t.line j = if j = i then l else s.line j := by
  rw [← State.line_setLine]
  simp only [State.line, h]
  rfl

/-- A commit ends whichever way its record is set, where the rest of the frame is kept. -/
theorem CommitEnds.of_fields {s t : State} {i : LineNo} {l : Line} (record : (s.line i).DealtWith l)
    (lines : t.engine.lines = s.engine.lines.set i l) (mode : t.engine.mode = s.engine.mode)
    (lastChosen : t.engine.lastChosen = s.engine.lastChosen)
    (rest : t = { s with
      portA := t.portA, portB := t.portB, engine := t.engine, handed := t.handed
      commit := { s.commit with pendingCommit := s.commit.pendingCommit.set i none } }) : CommitEnds s t i where
  record := by rwa [line_of_lines lines, if_pos rfl]
  line j hj := by rw [line_of_lines lines, if_neg hj]
  pendingOf j := by
    rw [← State.pendingOf_setPending, rest]
    rfl
  frame := ⟨by rw [rest], by rw [rest], mode, lastChosen, by rw [rest]⟩

theorem State.CommittedSoft.ends {s t : State} {i : LineNo} (h : s.CommittedSoft t i) : CommitEnds s t i := by
  obtain ⟨engine, -, rest⟩ := h
  refine .of_fields (.inl ⟨?_, ?_, ?_, .inl ?_⟩) (by rw [engine]) (by rw [engine]) (by rw [engine]) (by rw [rest])
  all_goals rfl

theorem State.CommittedEmpty.ends {s t : State} {source : Source} {i : LineNo} {state : LineState} {active : Image}
    {cause : Cause} (h : s.CommittedEmpty t source i state active cause) : CommitEnds s t i := by
  obtain ⟨engine, -, -, rest⟩ := h
  refine .of_fields (.inl ⟨?_, ?_, ?_, .inr ?_⟩) (by rw [engine]) (by rw [engine]) (by rw [engine]) rest
  all_goals rfl

theorem State.CommitRefused.ends {s t : State} {source : Source} {i j : LineNo} {reason : ClashReason}
    (h : s.CommitRefused t source i reason j) : CommitEnds s t i := by
  rw [State.CommitRefused] at h
  refine .of_fields (.inr ⟨reason, j, rfl⟩) ?_ ?_ ?_ ?_
  all_goals
    rw [h]

theorem applyCommit_ends (source : Source) (i : LineNo) (s : State) : CommitEnds s (applyCommit source i s) i := by
  cases h : commitKind (s.line i) (s.stagedOf i) with
  | soft => exact (applyCommit_soft h).ends
  | hard =>
    rw [applyCommit_hard_eq h]
    exact committedEmpty_of_abandon.ends
  | retiring =>
    rw [applyCommit_retiring_eq h]
    exact committedEmpty_of_abandon.ends

theorem dueCommit_ends (source : Source) (i : LineNo) (s : State) : CommitEnds s (dueCommit source i s) i := by
  unfold dueCommit
  split
  · exact State.CommitRefused.ends (source := source) rfl
  · exact applyCommit_ends source i s

/-! ### Line after line -/

theorem markLine_due {s : State} {i : LineNo} (h : s.pendingOf i = some .mark) :
    markLine s i = dueCommit .commitUnit i s := if_pos h

theorem markLine_other {s : State} {i : LineNo} (h : s.pendingOf i ≠ some .mark) : markLine s i = s := if_neg h

/-- A mark finds nothing to do where no MARK commit is pending. -/
theorem foldl_markLine_of_none {s : State} (h : ∀ i : LineNo, s.pendingOf i ≠ some .mark) (l : List LineNo) :
    l.foldl markLine s = s :=
  List.foldl_fixed' (fun i => markLine_other (h i)) l

/-- The state after the lines below `n` have been dealt with at a mark. -/
def markedBelow (s : State) (n : Nat) : State := (allLines.take n).foldl markLine s

theorem markedBelow_succ (s : State) (i : LineNo) : markedBelow s (i.val + 1) = markLine (markedBelow s i.val) i := by
  have h : allLines.take (i.val + 1) = allLines.take i.val ++ [i] := by
    revert i
    decide
  rw [markedBelow, h, List.foldl_append]
  rfl

/-- The commits of the lines below `n` have ended, and no other line or pending commit has changed. -/
structure EndedBelow (s t : State) (n : Nat) : Prop where
  ended : ∀ j : LineNo, j.val < n → s.pendingOf j = some .mark →
    t.pendingOf j = none ∧ (s.line j).DealtWith (t.line j)
  kept : ∀ j : LineNo, n ≤ j.val ∨ s.pendingOf j ≠ some .mark → t.pendingOf j = s.pendingOf j ∧ t.line j = s.line j
  frame : CommitFrame s t

theorem EndedBelow.next {s t : State} {i : LineNo} (h : EndedBelow s t i.val) :
    EndedBelow s (markLine t i) (i.val + 1) := by
  obtain ⟨ended, kept, frame⟩ := h
  obtain ⟨pendingEq, lineEq⟩ := kept i (.inl le_rfl)
  have below : ∀ j : LineNo, j.val < i.val + 1 → j ≠ i → j.val < i.val := fun j hj hji =>
    Nat.lt_of_le_of_ne (Nat.le_of_lt_succ hj) fun h => hji (Fin.ext h)
  by_cases hp : s.pendingOf i = some .mark
  · obtain ⟨record, line, pendingOf, frame'⟩ := dueCommit_ends .commitUnit i t
    rw [markLine_due (pendingEq.trans hp)]
    refine ⟨fun j hj hjp => ?_, fun j hj => ?_, frame.trans frame'⟩
    · by_cases hji : j = i
      · subst hji
        exact ⟨by rw [pendingOf, if_pos rfl], lineEq ▸ record⟩
      · rw [pendingOf, if_neg hji, line j hji]
        exact ended j (below j hj hji) hjp
    · have hji : j ≠ i := by
        rintro rfl
        exact hj.elim (Nat.not_succ_le_self _) fun h => h hp
      rw [pendingOf, if_neg hji, line j hji]
      exact kept j (hj.imp_left Nat.le_of_succ_le)
  · rw [markLine_other (by rwa [pendingEq])]
    refine ⟨fun j hj hjp => ended j (below j hj ?_) hjp, fun j hj => kept j (hj.imp_left Nat.le_of_succ_le), frame⟩
    rintro rfl
    exact hp hjp

theorem markedBelow_endedBelow (s : State) : ∀ n : Nat, n ≤ 16 → EndedBelow s (markedBelow s n) n
  | 0, _ => ⟨fun _ hj => absurd hj (Nat.not_lt_zero _), fun _ _ => ⟨rfl, rfl⟩, .refl s⟩
  | n + 1, hn => by
    have step : markedBelow s (n + 1) = markLine (markedBelow s n) ⟨n, hn⟩ := markedBelow_succ s ⟨n, hn⟩
    rw [step]
    exact (markedBelow_endedBelow s n (Nat.le_of_succ_le hn)).next

/-! ### The mark -/

/-- The state with its mark count advanced (R126). -/
def State.counted (s : State) : State :=
  { s with commit := { s.commit with markCount := s.commit.markCount + 1 } }

theorem markEvent_eq (s : State) : markEvent s = allLines.foldl markLine s.counted := rfl

theorem exec_markEdge (s : State) : exec .markEdge s = .next (if s.inReset then s else markEvent s) := rfl

theorem exec_markEdge_inReset {s : State} (h : s.inReset = true) : exec .markEdge s = .next s := by
  rw [exec_markEdge, if_pos h]

theorem exec_markEdge_marks {s : State} (h : s.inReset = false) : exec .markEdge s = .next (markEvent s) := by
  rw [exec_markEdge, if_neg (by simp [h])]

/-- Settles O34: the commits end one after the other, in the order in which the mark goes through the lines. -/
theorem markCountsAndDealsWithMarkCommits : Obligations.MarkCountsAndDealsWithMarkCommits := by
  unfold Obligations.MarkCountsAndDealsWithMarkCommits
  refine ⟨fun s h => exec_markEdge_inReset h, fun s h => ?_⟩
  have below : ∀ n, n ≤ 16 → EndedBelow s.counted (markedBelow s.counted n) n := markedBelow_endedBelow s.counted
  obtain ⟨ended, kept, frame⟩ : EndedBelow s.counted (markEvent s) 16 := below 16 le_rfl
  refine ⟨_, exec_markEdge_marks h, ?_, frame.staged, fun i => ?_, fun i hi => (kept i (.inr hi)).2,
    fun i hi => (ended i i.isLt hi).2, fun hnone => ?_, frame.mode, frame.lastChosen, frame.rest,
    markedBelow s.counted, ?_, rfl, fun i => ⟨fun hi => ?_, fun hi => ?_⟩⟩
  · rw [frame.markCount]
    exact BitVec.toNat_add ..
  · by_cases hi : s.pendingOf i = some .mark
    · rw [if_pos hi]
      exact (ended i i.isLt hi).1
    · rw [if_neg hi]
      exact (kept i (.inr hi)).1
  · rw [markEvent_eq, foldl_markLine_of_none (s := s.counted) hnone]
    rfl
  · rw [frame.markCount]
    rfl
  · have same := ((below i.val i.isLt.le).kept i (.inl le_rfl)).1
    rw [markedBelow_succ, markLine_other (by rw [same]; exact hi)]
  · have same := ((below i.val i.isLt.le).kept i (.inl le_rfl)).1
    rw [markedBelow_succ, markLine_due (same.trans hi)]
    exact dueCommit_dealt _ .commitUnit i

/-- Where one MARK commit is pending, a mark deals with that commit alone. -/
theorem foldl_markLine_of_single {s : State} {i : LineNo} (hp : s.pendingOf i = some .mark)
    (hothers : ∀ k : LineNo, k ≠ i → s.pendingOf k ≠ some .mark) {l : List LineNo} (hi : i ∈ l) :
    l.foldl markLine s = dueCommit .commitUnit i s := by
  induction l with
  | nil => cases hi
  | cons k more ih =>
    rw [List.foldl_cons]
    by_cases hk : k = i
    · rw [hk, markLine_due hp]
      refine foldl_markLine_of_none (fun j => ?_) more
      rw [(dueCommit_ends .commitUnit i s).pendingOf]
      by_cases hj : j = i
      · simp [hj]
      · rw [if_neg hj]
        exact hothers j hj
    · rw [markLine_other (hothers k hk)]
      exact ih ((List.mem_cons.mp hi).resolve_left (Ne.symm hk))

/-- An accepted IMMEDIATE ARM whose commit the clash check refuses sets the outcome alone (R124). -/
theorem armAccepted_refuses {i j : LineNo} {reason : ClashReason} {s : State}
    (h : clashCheck s i (s.stagedOf i) = some (reason, j)) :
    armAccepted i .immediate s = (setOutcome i (.refused reason j) s, clashHeld reason j) := by
  simp only [armAccepted, h]

/-- Settles O36: the mark deals with the one commit pending, and the IMMEDIATE ARM with its own; both refuse. -/
theorem clashRefusesTheCommit : Obligations.ClashRefusesTheCommit := by
  unfold Obligations.ClashRefusesTheCommit
  intro s i j reason clash refused
  have check : clashCheck s i (s.stagedOf i) = some (reason, j) := clashCheck_of_clashesWith clash
  refine ⟨fun hr hp hothers => ?_, fun hp idle image more hn => ?_⟩
  · have deals : markEvent s = dueCommit .commitUnit i s.counted :=
      foldl_markLine_of_single (s := s.counted) hp hothers (mem_allLines i)
    have refuses : s.counted.CommitRefused (dueCommit .commitUnit i s.counted) .commitUnit i reason j :=
      (dueCommit_dealt s.counted .commitUnit i).1 reason j clash
    rw [exec_markEdge_marks hr, deals, refuses]
    rfl
  · have checked := armLine_checked (s := shiftFrame (0x13 :: lineNoByte i :: 0x02 :: more) s) (code := 0x02)
      (more := more) (t := .immediate) idle rfl fun h => absurd (h.resolve_left (by simp)) clash.1
    rw [exec_arm_acts hp hn ((checked.2 image).trans (armAccepted_refuses (s := shiftFrame _ s) check))]
    cases reason <;> rfl

/-! ### The MARK command -/

/-- The state with another link and another level of SYSRSTN. -/
def State.withLink (s : State) (low : Bool) (k : Link) : State := { s with sysrstnLow := low, link := k }

theorem releaseByPolicy_withLink (i : LineNo) (d : Image) (s : State) (low : Bool) (k : Link) :
    releaseByPolicy i d (s.withLink low k) = (releaseByPolicy i d s).withLink low k := by
  unfold releaseByPolicy
  split <;> split <;> rfl

theorem applySoft_withLink (i : LineNo) (s : State) (low : Bool) (k : Link) :
    applySoft i (s.withLink low k) = (applySoft i s).withLink low k :=
  releaseByPolicy_withLink i (s.stagedOf i) (s.setLine i _) low k

theorem applyCommit_withLink (source : Source) (i : LineNo) (s : State) (low : Bool) (k : Link) :
    applyCommit source i (s.withLink low k) = (applyCommit source i s).withLink low k := by
  have same : commitKind (((s.withLink low k).setPending i none).line i)
      (((s.withLink low k).setPending i none).stagedOf i)
        = commitKind ((s.setPending i none).line i) ((s.setPending i none).stagedOf i) := rfl
  unfold applyCommit
  dsimp only
  rw [same]
  cases commitKind ((s.setPending i none).line i) ((s.setPending i none).stagedOf i) with
  | soft => exact congrArg recomputeUrgency (applySoft_withLink i (s.setPending i none) low k)
  | hard => rfl
  | retiring => rfl

/-- Dealing with a commit reads neither the link nor SYSRSTN, and changes neither. -/
theorem dueCommit_withLink (source : Source) (i : LineNo) (s : State) (low : Bool) (k : Link) :
    dueCommit source i (s.withLink low k) = (dueCommit source i s).withLink low k := by
  have same : clashCheck (s.withLink low k) i ((s.withLink low k).stagedOf i) = clashCheck s i (s.stagedOf i) := rfl
  unfold dueCommit
  rw [same]
  cases clashCheck s i (s.stagedOf i) with
  | some clash => rfl
  | none => exact applyCommit_withLink source i s low k

theorem markEvent_withLink (s : State) (low : Bool) (k : Link) :
    markEvent (s.withLink low k) = (markEvent s).withLink low k := by
  refine List.foldl_hom (fun t : State => t.withLink low k) (init := s.counted) fun t i => ?_
  by_cases h : t.pendingOf i = some .mark
  · rw [markLine_due h, markLine_due (s := t.withLink low k) h, dueCommit_withLink]
  · rw [markLine_other h, markLine_other (s := t.withLink low k) h]

theorem exec_mark (rest : List Byte) (s : State) :
    exec (.mark rest) s = .next (partFrame .mark rest markPart s) := rfl

/-- Settles O35: the mark of the command is that of the edge, on a state with another link and SYSRSTN. -/
theorem markCommandMakesTheSameMark : Obligations.MarkCommandMakesTheSameMark := by
  unfold Obligations.MarkCommandMakesTheSameMark
  intro s more hp hn
  have outside : ({ s with sysrstnLow := false } : State).inReset = false := by simp [State.inReset, hp]
  refine ⟨_, exec_markEdge_marks outside, ?_⟩
  have shifted : shiftFrame (0x15 :: 0xFF :: more) s =
      ({ s with sysrstnLow := false } : State).withLink s.sysrstnLow (s.linkAfter (0x15 :: 0xFF :: more) s.link.held) :=
    rfl
  rw [exec_mark, partFrame_acts hp (by simpa [Config.frameMax] using hn) (by simp [LinkCode.lengthOk])]
  show Host.Outcome.next (reply (markPart more (shiftFrame (0x15 :: 0xFF :: more) s))) = _
  rw [markPart, shifted, markEvent_withLink]
  generalize markEvent { s with sysrstnLow := false } = u
  rfl

end Sys2Proof.Machine
end

section
/-! ## The incident unit and its commands

An incident that arrives is dealt with by the incident unit alone; the three commands of the unit are frames of the
part, and TAKE_INCIDENT's reply is the record image, read back byte by byte. -/

namespace Sys2Proof.Machine

/-! ### The level of ALERT -/

/-- ALERT is low exactly while a record waits or the marker is set (R147). -/
theorem alertOf_iff (u : IncidentUnit) : alertOf u = true ↔ u.records ≠ [] ∨ u.overflow = true := by
  simp [alertOf]

/-! ### The commands of the incident unit -/

theorem exec_takeIncident (rest : List Byte) (s : State) :
    exec (.takeIncident rest) s = .next (partFrame .takeIncident rest takeIncidentPart s) := rfl

theorem exec_setEnables (rest : List Byte) (s : State) :
    exec (.setEnables rest) s = .next (partFrame .setEnables rest setEnablesPart s) := rfl

theorem exec_clearOverflow (rest : List Byte) (s : State) :
    exec (.clearOverflow rest) s = .next (partFrame .clearOverflow rest clearOverflowPart s) := rfl

/-- Settles O54: both frames are long enough and name the part; with the marker clear, ALERT follows the records. -/
theorem enablesAndOverflowCommandsAct : Obligations.EnablesAndOverflowCommandsAct := by
  unfold Obligations.EnablesAndOverflowCommandsAct
  refine fun s enables more hp => ⟨fun hn => ?_, fun hn => ?_⟩
  · rw [exec_setEnables, partFrame_acts hp (by simpa [Config.frameMax] using hn) (by simp [LinkCode.lengthOk])]
    rfl
  · have alert : alertOf { s.incidents with overflow := false } = decide (s.incidents.records ≠ []) :=
      Bool.eq_iff_iff.mpr ((alertOf_iff _).trans (by simp))
    rw [exec_clearOverflow, partFrame_acts hp (by simpa [Config.frameMax] using hn) (by simp [LinkCode.lengthOk]),
      ← alert]
    rfl

theorem exec_takeIncident_acts {s : State} {more : List Byte} {answer : State × Held} (hp : s.porstnLow = false)
    (hn : more.length ≤ 38) (ha : takeIncidentPart more (shiftFrame (0x40 :: 0xFF :: more) s) = answer) :
    exec (.takeIncident (0xFF :: more)) s = .next (reply answer) := by
  rw [exec_takeIncident, partFrame_acts hp (by simpa [Config.frameMax] using hn) (by simp [LinkCode.lengthOk])]
  exact congrArg (fun a => Host.Outcome.next (reply a)) ha

theorem takeIncidentPart_empty {args : List Byte} {s : State} (h : s.incidents.records = []) :
    takeIncidentPart args s = (s, statusOnly .empty) := by
  simp only [takeIncidentPart, h]

theorem takeIncidentPart_oldest {args : List Byte} {s : State} {r : Record} {left : List Record}
    (h : s.incidents.records = r :: left) :
    takeIncidentPart args s =
      ({ s with incidents := refreshAlert { s.incidents with records := left } }, okWith r.image) := by
  simp only [takeIncidentPart, h]

/-! ### The record image, read back -/

/-- Byte `k` of a number's little-endian bytes is its digit `k` to base 256. -/
theorem byteAt_leBytes (n v k : Nat) (hk : k < n) : byteAt (leBytes n v) k = v / 256 ^ k % 256 := by
  induction n generalizing v k with
  | zero => exact absurd hk (Nat.not_lt_zero k)
  | succ n ih =>
    cases k with
    | zero => simp [byteAt, leBytes]
    | succ k =>
      calc byteAt (leBytes (n + 1) v) (k + 1) = byteAt (leBytes n (v / 256)) k := rfl
        _ = v / 256 / 256 ^ k % 256 := ih (v / 256) k (Nat.lt_of_succ_lt_succ hk)
        _ = v / 256 ^ (k + 1) % 256 := by rw [Nat.div_div_eq_div_mul, Nat.pow_succ']

/-- Four little-endian bytes hold an address (R164). -/
theorem byteAt_leBytes_four {v : Nat} (hv : v < 4294967296) :
    byteAt (leBytes 4 v) 0 + 256 * byteAt (leBytes 4 v) 1 + 65536 * byteAt (leBytes 4 v) 2
      + 16777216 * byteAt (leBytes 4 v) 3 = v := by
  simp only [byteAt_leBytes 4 v, Nat.reduceLT, Nat.reducePow]
  omega

/-- Three little-endian bytes hold a detail (R164). -/
theorem byteAt_leBytes_three {v : Nat} (hv : v < 16777216) :
    byteAt (leBytes 3 v) 0 + 256 * byteAt (leBytes 3 v) 1 + 65536 * byteAt (leBytes 3 v) 2 = v := by
  simp only [byteAt_leBytes 3 v, Nat.reduceLT, Nat.reducePow]
  omega

theorem kindCode_eq_kindNumber (d : Detail) : Kind.code (Detail.kind d) = kindNumber d := by
  cases d <;> rfl

theorem kindNumber_le_seven (d : Detail) : kindNumber d ≤ 7 := by
  cases d <;> simp [kindNumber]

theorem portCode_le_three (p : Option Port) : portCode p ≤ 3 := by
  match p with
  | some .A | some .B | none => decide

/-- The detail bytes hold the detail's number, an under-run's reference and fill in twelve bits each (R164). -/
theorem byteAt_detailBytes {d : Detail}
    (fits : ∀ k fill : Nat, d = .underrun k fill → k < 4096 ∧ fill < 4096) :
    byteAt (Detail.bytes d) 0 + 256 * byteAt (Detail.bytes d) 1 + 65536 * byteAt (Detail.bytes d) 2
      = detailNumber d := by
  cases d with
  | underrun k fill =>
    obtain ⟨hk, hfill⟩ := fits k fill rfl
    rw [Detail.bytes, Nat.mod_eq_of_lt hk, Nat.mod_eq_of_lt hfill]
    exact byteAt_leBytes_three (by omega)
  | refused reason other =>
    have hother := toNat_ofNat_lineNo other
    cases reason <;> simp [Detail.bytes, byteAt, detailNumber, hother]
  | overrun d | shape d | guard d | timeout d | abandoned d | memfault d => cases d <;> rfl

section
variable (r : Record)

theorem image_sequence : byteAt r.image 0 + 256 * byteAt r.image 1 = r.sequence.toNat :=
  (toNat_leBytes_two r.sequence.toNat).trans (Nat.mod_eq_of_lt r.sequence.isLt)

theorem image_kind_port : byteAt r.image 2 = kindNumber r.incident.detail + 16 * portCode r.incident.port := by
  have hkind := kindNumber_le_seven r.incident.detail
  have hport := portCode_le_three r.incident.port
  show (BitVec.ofNat 8 (Kind.code (Detail.kind r.incident.detail) + 16 * portCode r.incident.port)).toNat = _
  rw [kindCode_eq_kindNumber, BitVec.toNat_ofNat]
  omega

theorem image_addr :
    byteAt r.image 5 + 256 * byteAt r.image 6 + 65536 * byteAt r.image 7 + 16777216 * byteAt r.image 8
      = ((r.incident.addr).getD 0).toNat :=
  byteAt_leBytes_four ((r.incident.addr).getD 0).isLt

end

/-- Settles O53: the first record leaves the queue and ALERT is set again; each field is read back from its bytes. -/
theorem takeIncidentReturnsTheOldestRecord : Obligations.TakeIncidentReturnsTheOldestRecord := by
  unfold Obligations.TakeIncidentReturnsTheOldestRecord
  refine fun s more hp hn => ⟨fun empty => ?_, fun r left oldest => ?_⟩
  · rw [exec_takeIncident_acts hp hn (takeIncidentPart_empty empty)]
    rfl
  refine ⟨r.image, alertOf { s.incidents with records := left }, ?_, alertOf_iff _, image_length r, image_sequence r,
    ?_, ?_, BitVec.toNat_ofNat .., ?_, byteAt_detailBytes⟩
  · rw [exec_takeIncident_acts hp hn (takeIncidentPart_oldest oldest)]
    rfl
  · rw [image_kind_port]
    rfl
  · show (lineByte r.incident.line).toNat = _
    cases r.incident.line with
    | none => rfl
    | some i => exact toNat_ofNat_lineNo i
  · rw [image_addr]
    cases r.incident.addr <;> rfl

/-! ### The arrival of an incident -/

theorem exec_incidentArrival_none {source : Source} {s : State} (h : ∀ y ∈ s.handed, y.source ≠ source) :
    exec (.incidentArrival source) s = .next s := by
  simp only [exec, execIncidentArrival, pickHanded_eq_none h]

/-- The oldest incident of the source is dealt with, and the others stay on their way. -/
theorem exec_incidentArrival_deals {source : Source} {s : State} {before after : List Handed} {x : Incident}
    (hl : s.handed = before ++ { source := source, incident := x } :: after)
    (hbefore : ∀ y ∈ before, y.source ≠ source) :
    exec (.incidentArrival source) s =
      .next { s with handed := before ++ after, incidents := s.incidents.deal x } := by
  simp only [exec, execIncidentArrival, hl, pickHanded_of_split source x before after hbefore]

/-- The codes number the kinds in their order, so a kind is read back from its code. -/
theorem ofNat_kindCode (k : Kind) : Kind.ofNat (Kind.code k) = k := by
  cases k <;> rfl

theorem kindNumber_eq_iff (a b : Detail) : kindNumber a = kindNumber b ↔ Detail.kind a = Detail.kind b := by
  rw [← kindCode_eq_kindNumber, ← kindCode_eq_kindNumber]
  exact (Function.LeftInverse.injective ofNat_kindCode).eq_iff

theorem takes_iff_matches (r : Record) (x : Incident) : r.takes x = true ↔ r.Matches x := by
  unfold Record.takes Record.Matches
  rw [kindNumber_eq_iff]
  simp only [Bool.and_eq_true, beq_iff_eq, decide_eq_true_eq, and_assoc]
  rfl

section
variable {u : IncidentUnit} {x : Incident}

theorem enabled_kind_eq : u.enabled (Detail.kind x.detail) = u.enables.getLsbD (kindNumber x.detail) :=
  congrArg u.enables.getLsbD (kindCode_eq_kindNumber x.detail)

theorem deal_disabled (h : u.enables.getLsbD (kindNumber x.detail) = false) : u.deal x = u := by
  simp [IncidentUnit.deal, enabled_kind_eq, h]

theorem deal_coalesces {older : List Record} {r : Record} (h : u.enables.getLsbD (kindNumber x.detail) = true)
    (hl : u.records = older ++ [r]) (takes : r.Matches x) :
    u.deal x = { u with records := older ++ [{ r with occurrences := r.occurrences + 1 }] } := by
  simp [IncidentUnit.deal, enabled_kind_eq, h, hl, (takes_iff_matches r x).mpr takes, IncidentUnit.coalesce]

theorem deal_appendOrDrop (h : u.enables.getLsbD (kindNumber x.detail) = true)
    (breaks : ∀ (older : List Record) (r : Record), u.records = older ++ [r] → ¬r.Matches x) :
    u.deal x = u.appendOrDrop x := by
  cases hl : u.records.getLast? with
  | none => simp only [IncidentUnit.deal, enabled_kind_eq, h, hl, if_true]
  | some r =>
    obtain ⟨older, hr⟩ := List.getLast?_eq_some_iff.mp hl
    have notTaken : ¬r.takes x = true := fun ht => breaks older r hr ((takes_iff_matches r x).mp ht)
    simp only [IncidentUnit.deal, enabled_kind_eq, h, hl, if_true, if_neg notTaken]

theorem appendOrDrop_room (room : u.records.length < 32) :
    u.appendOrDrop x = { u with
      records := u.records ++ [{ sequence := u.counter, incident := x, occurrences := 1 }]
      counter := u.counter + 1
      alertLow := true } := by
  rw [IncidentUnit.appendOrDrop, if_pos (show u.records.length < Config.incidentPlaces from room)]
  simp [IncidentUnit.append, refreshAlert, alertOf]

theorem appendOrDrop_full (full : 32 ≤ u.records.length) :
    u.appendOrDrop x = { u with overflow := true, alertLow := true } := by
  rw [IncidentUnit.appendOrDrop, if_neg (show ¬u.records.length < Config.incidentPlaces from Nat.not_lt.mpr full)]
  simp [IncidentUnit.dropOne, refreshAlert, alertOf]

end

/-- Settles O55: the arrival leaves what the unit makes of the incident, which each clause's condition decides. -/
theorem incidentArrivalCoalescesAppendsOrDrops : Obligations.IncidentArrivalCoalescesAppendsOrDrops := by
  unfold Obligations.IncidentArrivalCoalescesAppendsOrDrops
  refine fun s source => ⟨exec_incidentArrival_none, ?_⟩
  intro before after x hl hbefore u becomes enabled
  have arrives {v : IncidentUnit} (hv : u.deal x = v) : becomes v :=
    hv ▸ exec_incidentArrival_deals hl hbefore
  refine ⟨fun off => arrives (deal_disabled off), fun on => ⟨fun older r newest takes => ?_, fun breaks => ?_⟩⟩
  · exact arrives (deal_coalesces on newest takes)
  · have dealt := deal_appendOrDrop on breaks
    exact ⟨fun room => arrives (dealt.trans (appendOrDrop_room room)),
      fun full => arrives (dealt.trans (appendOrDrop_full full))⟩

end Sys2Proof.Machine
end

section
/-! ## The management link

A frame is judged by its length and its line byte before its command acts; a command that only reads replies and leaves
every block but the link as the frame found it. -/

namespace Sys2Proof.Machine

/-! ### Codes and frame bits -/

theorem ofByte_toByte (c : LinkCode) : LinkCode.ofByte c.toByte = some c := by
  cases c <;> rfl

theorem eq_toByte_of_ofByte {c : LinkCode} {b : Byte} (h : LinkCode.ofByte b = some c) : b = c.toByte := by
  unfold LinkCode.ofByte at h
  split at h <;> cases h
  all_goals exact BitVec.eq_of_toNat_eq ‹b.toNat = _›

theorem ofByte_eq_some_iff (c : LinkCode) (b : Byte) : LinkCode.ofByte b = some c ↔ b = c.toByte :=
  ⟨eq_toByte_of_ofByte, fun h => h ▸ ofByte_toByte c⟩

/-- Each of the 256 bytes is the sum of its bits. -/
theorem byteOfBits_getLsbD (b : Byte) :
    byteOfBits (b.getLsbD 7) (b.getLsbD 6) (b.getLsbD 5) (b.getLsbD 4) (b.getLsbD 3) (b.getLsbD 2) (b.getLsbD 1)
      (b.getLsbD 0) = b := by
  revert b
  decide

theorem frameOfBits_bitsOfByte_append (b : Byte) (more : List Bool) :
    frameOfBits (bitsOfByte b ++ more) = b :: frameOfBits more :=
  congrArg (· :: frameOfBits more) (byteOfBits_getLsbD b)

/-- Fewer than eight bits are no byte: an incomplete last byte is discarded (R150). -/
theorem frameOfBits_incomplete {bits : List Bool} (h : bits.length < 8) : frameOfBits bits = [] := by
  unfold frameOfBits
  split
  · simp only [List.length_cons] at h
    omega
  · rfl

/-- Settles O52: the bits are read back byte after byte, until only those of the incomplete byte are left. -/
theorem codesAndFrameBitsAreReadBack : Obligations.CodesAndFrameBitsAreReadBack := by
  unfold Obligations.CodesAndFrameBitsAreReadBack
  refine ⟨ofByte_eq_some_iff, fun bytes extra he => ?_⟩
  induction bytes with
  | nil => exact frameOfBits_incomplete he
  | cons b more ih =>
    calc frameOfBits (bitsOfFrame (b :: more) ++ extra)
        = frameOfBits (bitsOfByte b ++ (bitsOfFrame more ++ extra)) := by
          rw [bitsOfFrame, List.flatMap_cons, List.append_assoc, bitsOfFrame]
      _ = b :: frameOfBits (bitsOfFrame more ++ extra) := frameOfBits_bitsOfByte_append b _
      _ = b :: more := by rw [ih]

/-! ### How a frame ends -/

theorem exec_command (c : LinkCode) (rest : List Byte) (s : State) :
    exec (LinkCode.command rest c) s = .next (frameOfCode c rest s) :=
  exec_linkCommand (by cases c <;> rfl) s

/-- A frame that does not act changes the link alone. -/
theorem setHeld_statusOnly_shiftFrame (status : LinkStatus) (bytes : List Byte) (s : State) :
    setHeld (statusOnly status) (shiftFrame bytes s) =
      { s with link := s.linkAfter bytes { status := status, bytes := [] } } := rfl

/-- A frame that is only shifted keeps the held result. -/
theorem shiftFrame_eq_linkAfter (bytes : List Byte) (s : State) :
    shiftFrame bytes s = { s with link := s.linkAfter bytes s.link.held } := rfl

/-- A frame too long, or of a length its command does not act on, is BADFRAME (R151, checks 2, 4 and 5). -/
theorem frameOfCode_badframe {c : LinkCode} {rest : List Byte} {s : State} (hp : s.porstnLow = false)
    (hb : Config.frameMax < rest.length + 1 ∨ LinkCode.lengthOk c rest = false) :
    frameOfCode c rest s =
      { s with link := s.linkAfter (c.toByte :: rest) { status := .badframe, bytes := [] } } := by
  rw [← setHeld_statusOnly_shiftFrame]
  cases c <;> simp only [frameOfCode, lineFrame, partFrame, endFrame_bad hp hb]

theorem lineOfByte_eq_none {b : Byte} (h : 16 ≤ b.toNat) : lineOfByte b = none :=
  dif_neg (Nat.not_lt.mpr h)

/-- Of an acting length, a line byte that is no line for a line command, or not 0xFF for a part command, is BADLINE
(R151, check 6). -/
theorem frameOfCode_badline {c : LinkCode} {b : Byte} {args : List Byte} {s : State} (hp : s.porstnLow = false)
    (hc : c ≠ .result) (hn : args.length + 2 ≤ Config.frameMax) (hl : LinkCode.lengthOk c (b :: args) = true)
    (hb : if LinkCode.namesLine c = true then 16 ≤ b.toNat else b.toNat ≠ 255) :
    frameOfCode c (b :: args) s =
      { s with link := s.linkAfter (c.toByte :: b :: args) { status := .badline, bytes := [] } } := by
  rw [← setHeld_statusOnly_shiftFrame]
  cases c with
  | result => exact absurd rfl hc
  | stage | readStaged | readActive | arm | disarm | flush | queryLine =>
    exact lineFrame_badline hp hn hl (lineOfByte_eq_none hb)
  | identify | mark | queryPart | engage | disengage | takeIncident | setEnables | clearOverflow | clear =>
    exact partFrame_badline hp hn hl fun h => hb (congrArg BitVec.toNat h)

/-- No command acts on a frame without a line byte. -/
theorem exists_lineByte_of_lengthOk {c : LinkCode} {rest : List Byte} (h : LinkCode.lengthOk c rest = true) :
    ∃ b args, rest = b :: args := by
  cases rest with
  | nil => cases c <;> exact Bool.noConfusion h
  | cons b args => exact ⟨b, args, rfl⟩

/-- Settles O51: the statement's acting lengths are the model's, and such a frame has a line byte to judge. -/
theorem framesAreJudgedByLengthThenLineByte : Obligations.FramesAreJudgedByLengthThenLineByte := by
  unfold Obligations.FramesAreJudgedByLengthThenLineByte
  intro c rest s hp hc endsAs n long
  have acting : long ↔ LinkCode.lengthOk c rest = true := by
    cases c with
    | result => exact absurd rfl hc
    | _ => exact decide_eq_true_iff.symm
  refine ⟨fun bad => ?_, fun hn hlong line => ?_⟩
  · refine (exec_command c rest s).trans (congrArg _ (frameOfCode_badframe hp ?_))
    exact bad.imp_right fun h => Bool.eq_false_iff.mpr (mt acting.mpr h)
  · have hl := acting.mp hlong
    obtain ⟨b, args, rfl⟩ := exists_lineByte_of_lengthOk hl
    exact (exec_command c _ s).trans (congrArg _ (frameOfCode_badline hp hc hn hl line))

/-! ### Frames that reach no block -/

theorem exec_badframe (bytes : List Byte) (s : State) : exec (.badframe bytes) s = .next (linkFrame bytes s) := rfl

theorem linkFrame_low {bytes : List Byte} {s : State} (hp : s.porstnLow = true) : linkFrame bytes s = s :=
  if_pos hp

theorem linkFrame_nil {s : State} (hp : s.porstnLow = false) : linkFrame [] s = shiftFrame [] s := by
  simp only [linkFrame, hp, Bool.false_eq_true, if_false]

theorem linkFrame_known {c : LinkCode} {rest : List Byte} {s : State} (hp : s.porstnLow = false) :
    linkFrame (c.toByte :: rest) s = frameOfCode c rest s := by
  simp only [linkFrame, hp, Bool.false_eq_true, if_false, ofByte_toByte]

theorem linkFrame_unknown {code : Byte} {rest : List Byte} {s : State} (hp : s.porstnLow = false)
    (hcode : ∀ c : LinkCode, c.toByte ≠ code) :
    linkFrame (code :: rest) s =
      { s with link := s.linkAfter (code :: rest) { status := .badframe, bytes := [] } } := by
  have unknown : LinkCode.ofByte code = none :=
    Option.eq_none_iff_forall_ne_some.mpr fun c h => hcode c (eq_toByte_of_ofByte h).symm
  rw [← setHeld_statusOnly_shiftFrame]
  simp only [linkFrame, hp, Bool.false_eq_true, if_false, unknown]

/-- A frame of more than 40 bytes is BADFRAME whether or not its byte 0 is a code. -/
theorem linkFrame_long {bytes : List Byte} {s : State} (hp : s.porstnLow = false) (hn : 40 < bytes.length) :
    linkFrame bytes s = { s with link := s.linkAfter bytes { status := .badframe, bytes := [] } } := by
  cases bytes with
  | nil => exact absurd hn (Nat.not_lt_zero 40)
  | cons code rest =>
    by_cases known : ∃ c : LinkCode, c.toByte = code
    · obtain ⟨c, rfl⟩ := known
      rw [linkFrame_known hp, frameOfCode_badframe hp (.inl hn)]
    · exact linkFrame_unknown hp (not_exists.mp known)

/-- RESULT of an acting length is shifted and does nothing else (R152). -/
theorem frameOfCode_result {rest : List Byte} {s : State} (hp : s.porstnLow = false) (h1 : 1 ≤ rest.length)
    (h39 : rest.length ≤ 39) : frameOfCode .result rest s = shiftFrame (0x00 :: rest) s :=
  have acting : LinkCode.lengthOk .result rest = true := by
    simp [LinkCode.lengthOk, Config.frameMax]
    omega
  endFrame_acts (c := .result) (judged := fun u => u) hp (Nat.succ_le_succ h39) acting

/-- Settles O50: a frame by its raw bytes is empty, long, of a known or of an unknown code. -/
theorem framesThatReachNoBlock : Obligations.FramesThatReachNoBlock := by
  unfold Obligations.FramesThatReachNoBlock
  refine fun s => ⟨fun hp bytes => ⟨?_, fun c => ?_⟩, fun hp => ⟨?_, ?_, ?_, ?_, ?_⟩⟩
  · rw [exec_badframe, linkFrame_low hp]
  · rw [exec_command, frameOfCode_low hp]
  · rw [exec_badframe, linkFrame_nil hp, shiftFrame_eq_linkAfter]
  · intro bytes hn
    rw [exec_badframe, linkFrame_long hp hn]
  · intro code rest hcode
    rw [exec_badframe, linkFrame_unknown hp hcode]
  · intro rest h1 h39
    exact (exec_command .result rest s).trans (congrArg _ (frameOfCode_result hp h1 h39))
  · exact (exec_command .result [] s).trans (congrArg _ (frameOfCode_badframe hp (.inr rfl)))

/-! ### Commands that only reply -/

/-- A part command that answers from the state it finds and leaves it as it is. -/
theorem partFrame_replies {c : LinkCode} {more : List Byte} {answer : State → Held} {s : State}
    (hp : s.porstnLow = false) (hn : more.length ≤ 38) (hl : LinkCode.lengthOk c (0xFF :: more) = true) :
    partFrame c (0xFF :: more) (fun _ u => (u, answer u)) s =
      let bytes := c.toByte :: 0xFF :: more
      { s with link := s.linkAfter bytes (answer (shiftFrame bytes s)) } :=
  partFrame_acts hp (Nat.add_le_add_right hn 2) hl

/-- A line command that answers from the state it finds and leaves it as it is. -/
theorem lineFrame_replies {c : LinkCode} {i : LineNo} {more : List Byte} {answer : LineNo → State → Held}
    {s : State} (hp : s.porstnLow = false) (hn : more.length ≤ 38)
    (hl : LinkCode.lengthOk c (lineNoByte i :: more) = true) :
    lineFrame c (lineNoByte i :: more) (fun j _ u => (u, answer j u)) s =
      let bytes := c.toByte :: lineNoByte i :: more
      { s with link := s.linkAfter bytes (answer i (shiftFrame bytes s)) } :=
  lineFrame_acts hp (Nat.add_le_add_right hn 2) hl (lineOfByte_lineNoByte i)

/-- No command but RESULT, STAGE, ARM and SET_ENABLES asks for more than a line byte (R160). -/
theorem lengthOk_of_lineByte {c : LinkCode} (hc : c ∉ [LinkCode.result, .stage, .arm, .setEnables]) (b : Byte)
    (more : List Byte) : LinkCode.lengthOk c (b :: more) = true := by
  cases c with
  | result | stage | arm | setEnables => exact absurd (by decide) hc
  | _ => exact decide_eq_true (Nat.le_add_left 2 more.length)

/-- Settles O44: each command's answer is read from a block that the shift of the frame leaves as it is. -/
theorem readingCommandsReplyAndChangeNothing : Obligations.ReadingCommandsReplyAndChangeNothing := by
  unfold Obligations.ReadingCommandsReplyAndChangeNothing
  intro s i more hp hn
  refine ⟨?_, ?_, ?_⟩
  · exact congrArg Host.Outcome.next (partFrame_replies hp hn (lengthOk_of_lineByte (by decide) _ more))
  · exact congrArg Host.Outcome.next (lineFrame_replies hp hn (lengthOk_of_lineByte (by decide) _ more))
  · exact congrArg Host.Outcome.next (lineFrame_replies hp hn (lengthOk_of_lineByte (by decide) _ more))

/-! ### QUERY_PART -/

theorem modeCode_toNat (m : Mode) : (Mode.code m).toNat = if m = .engaged then 1 else 0 := by
  cases m <;> rfl

theorem flagByte_toNat (b : Bool) : (flagByte b).toNat = if b = true then 1 else 0 := by
  cases b <;> rfl

/-- The nine fields of QUERY_PART, each read back from its byte; the two capacities fit in a byte (R163). -/
theorem queryPartBytes_toNat {s : State} (hr : s.incidents.records.length ≤ 32) (hm : s.memQueue.length ≤ 8) :
    (queryPartBytes s).map (fun x => x.toNat) =
      [if s.engine.mode = .engaged then 1 else 0, s.commit.markCount.toNat % 256, s.commit.markCount.toNat / 256,
        s.incidents.records.length, if s.incidents.overflow = true then 1 else 0, s.incidents.enables.toNat,
        if s.engine.urgentA = true then 1 else 0, if s.engine.urgentB = true then 1 else 0, s.memQueue.length] := by
  have fits {n : Nat} (h : n < 256) : (BitVec.ofNat 8 n).toNat = n := Nat.mod_eq_of_lt h
  have marks : s.commit.markCount.toNat < 65536 := s.commit.markCount.isLt
  have high : (BitVec.ofNat 8 (s.commit.markCount.toNat / 256)).toNat = s.commit.markCount.toNat / 256 :=
    fits (by omega)
  have low : (BitVec.ofNat 8 s.commit.markCount.toNat).toNat = s.commit.markCount.toNat % 256 :=
    BitVec.toNat_ofNat ..
  have records := fits (show s.incidents.records.length < 256 by omega)
  have transactions := fits (show s.memQueue.length < 256 by omega)
  simp only [queryPartBytes, leBytes_two, List.cons_append, List.nil_append, List.map_cons, List.map_nil,
    modeCode_toNat, flagByte_toNat, low, high, records, transactions]

/-- Settles O46: the frame is long enough and names the part, so the reply is `queryPartBytes`. -/
theorem queryPartReportsThePart : Obligations.QueryPartReportsThePart := by
  unfold Obligations.QueryPartReportsThePart
  intro s more hp hn hr hm
  refine ⟨queryPartBytes s, ?_, queryPartBytes_toNat hr hm⟩
  exact congrArg Host.Outcome.next (partFrame_replies hp hn (lengthOk_of_lineByte (by decide) _ more))

end Sys2Proof.Machine
end

section
/-! ## The commands that wait

The part's own blocks never look at the queue of commands that wait: every function of the model, from the named
operations up to `exec`, commutes with a change of that queue (`exec_withWaiting`). That the queue is kept is the same
fact, read at the queue the state has. -/

namespace Sys2Proof.Machine

/-! ### The step -/

theorem step_of_waiting {c : Instr} {rest : List Instr} {s : State} (h : s.pending = c :: rest) :
    step s = exec c { s with pending := rest } := by
  rw [step, h]

theorem step_of_idle {s : State} (h : s.pending = []) : step s = .next s := by
  rw [step, h]

/-- Settles O1: the two cases of the queue. -/
theorem stepRunsFrontCommand : Obligations.StepRunsFrontCommand :=
  ⟨fun _ _ _ => step_of_waiting, fun _ => step_of_idle⟩

/-! ### A change of the waiting queue, seen by the named operations -/

/-- The state with other commands waiting. -/
def State.withWaiting (s : State) (q : List Instr) : State := { s with pending := q }

/-- Both branches of a conditional taken through `g`, the condition being the same. -/
theorem ite_eq_apply_ite {α β : Type} (g : α → β) {c c' : Prop} [Decidable c] [Decidable c'] {a b : α} {a' b' : β}
    (hc : c' ↔ c) (ha : a' = g a) (hb : b' = g b) : (if c' then a' else b') = g (if c then a else b) := by
  rw [apply_ite g, if_congr hc ha hb]

section
variable (s : State) (q : List Instr)

@[simp] theorem withWaiting_line (i : LineNo) : (s.withWaiting q).line i = s.line i := rfl
@[simp] theorem withWaiting_stagedOf (i : LineNo) : (s.withWaiting q).stagedOf i = s.stagedOf i := rfl
@[simp] theorem withWaiting_pendingOf (i : LineNo) : (s.withWaiting q).pendingOf i = s.pendingOf i := rfl
@[simp] theorem withWaiting_intake (p : Port) : (s.withWaiting q).intake p = s.intake p := by cases p <;> rfl
@[simp] theorem withWaiting_inReset : (s.withWaiting q).inReset = s.inReset := rfl
@[simp] theorem withWaiting_memQueue : (s.withWaiting q).memQueue = s.memQueue := rfl
@[simp] theorem withWaiting_handed : (s.withWaiting q).handed = s.handed := rfl
@[simp] theorem withWaiting_incidents : (s.withWaiting q).incidents = s.incidents := rfl
@[simp] theorem withWaiting_tickCount : (s.withWaiting q).tickCount = s.tickCount := rfl
@[simp] theorem withWaiting_porstnLow : (s.withWaiting q).porstnLow = s.porstnLow := rfl

@[simp] theorem setLine_withWaiting (i : LineNo) (l : Line) :
    (s.withWaiting q).setLine i l = (s.setLine i l).withWaiting q := rfl

@[simp] theorem setPending_withWaiting (i : LineNo) (t : Option Trigger) :
    (s.withWaiting q).setPending i t = (s.setPending i t).withWaiting q := rfl

@[simp] theorem setOutcome_withWaiting (i : LineNo) (outcome : CommitOutcome) :
    setOutcome i outcome (s.withWaiting q) = (setOutcome i outcome s).withWaiting q := rfl

@[simp] theorem recomputeUrgency_withWaiting :
    recomputeUrgency (s.withWaiting q) = (recomputeUrgency s).withWaiting q := rfl

@[simp] theorem setIntake_withWaiting (p : Port) (it : Intake) :
    (s.withWaiting q).setIntake p it = (s.setIntake p it).withWaiting q := by cases p <;> rfl

@[simp] theorem setDeadline_withWaiting (p : Port) (d : Option (BitVec 32)) :
    setDeadline p d (s.withWaiting q) = (setDeadline p d s).withWaiting q := by simp [setDeadline]

@[simp] theorem updateEntry_withWaiting (p : Port) (tag : Nat) (f : Entry → Entry) :
    updateEntry p tag f (s.withWaiting q) = (updateEntry p tag f s).withWaiting q := by simp [updateEntry]

@[simp] theorem answerEntry_withWaiting (p : Port) (e : Entry) (status : Status) (data : Data) :
    answerEntry p e status data (s.withWaiting q) = (answerEntry p e status data s).withWaiting q := by
  simp [answerEntry]

@[simp] theorem issue_withWaiting (p : Port) (e : Entry) (t : Transaction) :
    issue p e t (s.withWaiting q) = (issue p e t s).withWaiting q :=
  updateEntry_withWaiting { s with memQueue := s.memQueue ++ [t] } q p e.tag _

@[simp] theorem hand_withWaiting (source : Source) (x : Incident) :
    hand source x (s.withWaiting q) = (hand source x s).withWaiting q := rfl

@[simp] theorem park_withWaiting (p : Port) (e : Entry) (due : Option (BitVec 32)) :
    park p e due (s.withWaiting q) = (park p e due s).withWaiting q := by simp [park]

@[simp] theorem releaseParked_withWaiting (i : LineNo) (op : ParkedOp) :
    releaseParked i op (s.withWaiting q) = (releaseParked i op s).withWaiting q := rfl

@[simp] theorem abandon_withWaiting (source : Source) (cause : Cause) (which : Entry → Bool) :
    abandon source cause which (s.withWaiting q) = (abandon source cause which s).withWaiting q := rfl

/-! ### Commits -/

theorem releaseByPolicy_withWaiting (i : LineNo) (d : Image) :
    releaseByPolicy i d (s.withWaiting q) = (releaseByPolicy i d s).withWaiting q := by
  unfold releaseByPolicy
  split <;> split <;> rfl

theorem applyCommit_withWaiting (source : Source) (i : LineNo) :
    applyCommit source i (s.withWaiting q) = (applyCommit source i s).withWaiting q := by
  simp only [applyCommit, setPending_withWaiting, withWaiting_line, withWaiting_stagedOf]
  split
  · simp [applySoft, releaseByPolicy_withWaiting]
  · simp [applyHard]
  · simp [applyRetiring]

@[simp] theorem clashCheck_withWaiting (i : LineNo) (d : Image) :
    clashCheck (s.withWaiting q) i d = clashCheck s i d := rfl

theorem dueCommit_withWaiting (source : Source) (i : LineNo) :
    dueCommit source i (s.withWaiting q) = (dueCommit source i s).withWaiting q := by
  simp only [dueCommit, withWaiting_stagedOf, clashCheck_withWaiting]
  split
  · simp [refuseCommit]
  · exact applyCommit_withWaiting s q source i

theorem markLine_withWaiting (i : LineNo) : markLine (s.withWaiting q) i = (markLine s i).withWaiting q := by
  exact ite_eq_apply_ite (State.withWaiting · q) Iff.rfl (dueCommit_withWaiting s q .commitUnit i) rfl

theorem markEvent_withWaiting : markEvent (s.withWaiting q) = (markEvent s).withWaiting q :=
  List.foldl_hom (fun t : State => t.withWaiting q) (init := s.counted) fun t i => markLine_withWaiting t q i

@[simp] theorem reportIfWrapped_withWaiting (i : LineNo) (wrapped : Bool) :
    reportIfWrapped i wrapped (s.withWaiting q) = (reportIfWrapped i wrapped s).withWaiting q := by
  refine ite_eq_apply_ite (State.withWaiting · q) Iff.rfl ?_ rfl
  exact ite_eq_apply_ite (State.withWaiting · q) Iff.rfl (dueCommit_withWaiting s q .lineEngine i) rfl

theorem cancelPending_withWaiting (i : LineNo) :
    cancelPending i (s.withWaiting q) = (cancelPending i s).withWaiting q :=
  ite_eq_apply_ite (State.withWaiting · q) Iff.rfl rfl rfl

/-! ### The take -/

@[simp] theorem underrun_withWaiting (p : Port) (e : Entry) (i : LineNo) (k : Nat) :
    underrun p e i k (s.withWaiting q) = (underrun p e i k s).withWaiting q := by
  simp [underrun, answerUnderrun_eq]

@[simp] theorem accessReference_withWaiting (p : Port) (e : Entry) (i : LineNo) (k : Nat) (purpose : Purpose) :
    accessReference p e i k purpose (s.withWaiting q) = (accessReference p e i k purpose s).withWaiting q := by
  refine ite_eq_apply_ite (State.withWaiting · q) Iff.rfl ?_ ?_
  · exact issue_withWaiting s q p e _
  · exact underrun_withWaiting s q p e i k

@[simp] theorem accessWalk_withWaiting (p : Port) (e : Entry) (i : LineNo) (purpose : Purpose) :
    accessWalk p e i purpose (s.withWaiting q) = (accessWalk p e i purpose s).withWaiting q := by
  simp [accessWalk]

theorem overrun_withWaiting (due : Option (BitVec 32)) (p : Port) (e : Entry) (i : LineNo) :
    overrun due p e i (s.withWaiting q) = (overrun due p e i s).withWaiting q := by
  simp only [overrun, withWaiting_line]
  split
  · simp
  · simp [displace]
  · simp
  · simp

theorem queuePush_withWaiting (due : Option (BitVec 32)) (p : Port) (e : Entry) (i : LineNo) :
    queuePush due p e i (s.withWaiting q) = (queuePush due p e i s).withWaiting q := by
  refine ite_eq_apply_ite (State.withWaiting · q) Iff.rfl ?_ ?_
  · simp [enqueue]
  · exact overrun_withWaiting s q due p e i

theorem queuePop_withWaiting (due : Option (BitVec 32)) (p : Port) (e : Entry) (i : LineNo) :
    queuePop due p e i (s.withWaiting q) = (queuePop due p e i s).withWaiting q := by
  refine ite_eq_apply_ite (State.withWaiting · q) Iff.rfl ?_ ?_
  · simp [dequeue]
  · refine ite_eq_apply_ite (State.withWaiting · q) Iff.rfl ?_ ?_
    · exact park_withWaiting s q p e due
    · exact underrun_withWaiting s q p e i 0

theorem queueDiscard_withWaiting (p : Port) (e : Entry) (i : LineNo) :
    queueDiscard p e i (s.withWaiting q) = (queueDiscard p e i s).withWaiting q := by
  refine Eq.trans (congrArg (answerEntry p e .okay 0) ?_) (answerEntry_withWaiting _ q p e .okay 0)
  exact ite_eq_apply_ite (State.withWaiting · q) Iff.rfl rfl rfl

theorem performOp_withWaiting (due : Option (BitVec 32)) (p : Port) (e : Entry) (i : LineNo) (op : LineOp) :
    performOp due p e i op (s.withWaiting q) = (performOp due p e i op s).withWaiting q := by
  cases op with
  | push =>
    refine ite_eq_apply_ite (State.withWaiting · q) Iff.rfl ?_ ?_
    · exact queuePush_withWaiting s q due p e i
    · simp [delayPush]
  | pop => exact queuePop_withWaiting s q due p e i
  | discard => exact queueDiscard_withWaiting s q p e i
  | levelRead => simp [performOp, levelRead]
  | generationRead => exact answerEntry_withWaiting s q p e .okay (numberData (genValue s i))
  | newestRead | tapRead | tapPeek | tapAmend => simp [performOp]
  | walkRead | walkPeek | walkAmend => simp [performOp]

theorem performDecoded_withWaiting (due : Option (BitVec 32)) (p : Port) (e : Entry) (d : Decoded) :
    performDecoded due p e d (s.withWaiting q) = (performDecoded due p e d s).withWaiting q := by
  cases d with
  | plain => simp [performDecoded]
  | operation i op => exact performOp_withWaiting s q due p e i op
  | refused how charged => simp [performDecoded]

@[simp] theorem decodeTaken_withWaiting (e : Entry) : decodeTaken (s.withWaiting q) e = decodeTaken s e := rfl

@[simp] theorem nextTake_withWaiting : nextTake (s.withWaiting q) = nextTake s := rfl

@[simp] theorem deadlineIfParked_withWaiting (p : Port) (e : Entry) (d : Decoded) :
    deadlineIfParked (s.withWaiting q) p e d = deadlineIfParked s p e d := by
  simp [deadlineIfParked]

@[simp] theorem beginTake_withWaiting (p : Port) (e : Entry) (d : Decoded) :
    beginTake p e d (s.withWaiting q) = (beginTake p e d s).withWaiting q := by
  unfold beginTake
  split <;> cases p <;> rfl

theorem takeEntry_withWaiting (p : Port) (e : Entry) :
    takeEntry p e (s.withWaiting q) = (takeEntry p e s).withWaiting q := by
  simp [takeEntry, performDecoded_withWaiting]

end

end Sys2Proof.Machine
end

section
namespace Sys2Proof.Machine

/-! ### Frames of the link -/

section
variable (s : State) (q : List Instr)

/-- What a command that acts leaves, with other commands waiting. -/
def actedWithWaiting (q : List Instr) (answer : State × Held) : State × Held := (answer.1.withWaiting q, answer.2)

theorem reply_actedWithWaiting (answer : State × Held) :
    reply (actedWithWaiting q answer) = (reply answer).withWaiting q := rfl

theorem shiftFrame_withWaiting (bytes : List Byte) :
    shiftFrame bytes (s.withWaiting q) = (shiftFrame bytes s).withWaiting q := rfl

theorem setHeld_withWaiting (h : Held) : setHeld h (s.withWaiting q) = (setHeld h s).withWaiting q := rfl

theorem stageLine_withWaiting (i : LineNo) (args : List Byte) :
    stageLine i args (s.withWaiting q) = actedWithWaiting q (stageLine i args s) := by
  refine ite_eq_apply_ite (actedWithWaiting q) Iff.rfl rfl ?_
  exact ite_eq_apply_ite (actedWithWaiting q) Iff.rfl rfl rfl

theorem armAccepted_withWaiting (i : LineNo) (t : ArmTrigger) :
    armAccepted i t (s.withWaiting q) = actedWithWaiting q (armAccepted i t s) := by
  cases t with
  | pend trigger => rfl
  | immediate =>
    simp only [armAccepted, withWaiting_stagedOf, clashCheck_withWaiting, applyCommit_withWaiting]
    split <;> rfl

theorem armLine_withWaiting (i : LineNo) (args : List Byte) :
    armLine i args (s.withWaiting q) = actedWithWaiting q (armLine i args s) := by
  refine ite_eq_apply_ite (actedWithWaiting q) Iff.rfl rfl ?_
  cases armTrigger ((args[0]?).getD 0) with
  | none => rfl
  | some t =>
    refine ite_eq_apply_ite (actedWithWaiting q) Iff.rfl rfl (ite_eq_apply_ite (actedWithWaiting q) Iff.rfl rfl ?_)
    simp only [withWaiting_stagedOf, armAccepted_withWaiting]
    split <;> rfl

theorem disarmLine_withWaiting (i : LineNo) (args : List Byte) :
    disarmLine i args (s.withWaiting q) = actedWithWaiting q (disarmLine i args s) := by
  refine ite_eq_apply_ite (actedWithWaiting q) Iff.rfl ?_ rfl
  exact congrArg (·, okWith []) (cancelPending_withWaiting s q i)

theorem markPart_withWaiting (args : List Byte) :
    markPart args (s.withWaiting q) = actedWithWaiting q (markPart args s) := by
  rw [markPart, markPart, markEvent_withWaiting, actedWithWaiting]

theorem flushLine_withWaiting (i : LineNo) (args : List Byte) :
    flushLine i args (s.withWaiting q) = actedWithWaiting q (flushLine i args s) :=
  ite_eq_apply_ite (actedWithWaiting q) Iff.rfl rfl rfl

theorem takeIncidentPart_withWaiting (args : List Byte) :
    takeIncidentPart args (s.withWaiting q) = actedWithWaiting q (takeIncidentPart args s) := by
  simp only [takeIncidentPart, withWaiting_incidents]
  split <;> rfl

theorem foldl_clearLine_withWaiting (l : List LineNo) :
    l.foldl clearLine (s.withWaiting q) = (l.foldl clearLine s).withWaiting q :=
  List.foldl_hom (fun t : State => t.withWaiting q) fun t i => by simp [clearLine, cancelPending_withWaiting]

theorem clearPart_withWaiting (args : List Byte) :
    clearPart args (s.withWaiting q) = actedWithWaiting q (clearPart args s) := by
  rw [clearPart, clearPart, foldl_clearLine_withWaiting]
  generalize allLines.foldl clearLine s = u
  rfl

theorem linkAct_withWaiting (c : LinkCode) (i : LineNo) (args : List Byte) :
    linkAct c i args (s.withWaiting q) = actedWithWaiting q (linkAct c i args s) := by
  cases c with
  | stage => exact stageLine_withWaiting s q i args
  | arm => exact armLine_withWaiting s q i args
  | disarm => exact disarmLine_withWaiting s q i args
  | mark => exact markPart_withWaiting s q args
  | flush => exact flushLine_withWaiting s q i args
  | takeIncident => exact takeIncidentPart_withWaiting s q args
  | clear => exact clearPart_withWaiting s q args
  | result | identify | readStaged | readActive | queryLine | queryPart => rfl
  | engage | disengage | setEnables | clearOverflow => rfl

theorem endFrame_withWaiting {judged : State → State}
    (hj : ∀ u : State, judged (u.withWaiting q) = (judged u).withWaiting q) (c : LinkCode) (rest : List Byte) :
    endFrame c rest judged (s.withWaiting q) = (endFrame c rest judged s).withWaiting q := by
  simp only [endFrame, withWaiting_porstnLow, shiftFrame_withWaiting, setHeld_withWaiting, hj]
  split
  · rfl
  · split <;> rfl

theorem lineFrame_withWaiting {c : LinkCode} {act : LineNo → List Byte → State → State × Held}
    (hact : ∀ i args u, act i args u = linkAct c i args u) (rest : List Byte) :
    lineFrame c rest act (s.withWaiting q) = (lineFrame c rest act s).withWaiting q := by
  refine endFrame_withWaiting s q (fun u => ?_) c rest
  simp only [hact, linkAct_withWaiting, reply_actedWithWaiting, setHeld_withWaiting]
  split <;> rfl

theorem partFrame_withWaiting {c : LinkCode} {act : List Byte → State → State × Held}
    (hact : ∀ i args u, act args u = linkAct c i args u) (rest : List Byte) :
    partFrame c rest act (s.withWaiting q) = (partFrame c rest act s).withWaiting q := by
  refine endFrame_withWaiting s q (fun u => ?_) c rest
  simp only [hact 0, linkAct_withWaiting, reply_actedWithWaiting, setHeld_withWaiting]
  split <;> rfl

theorem frameOfCode_withWaiting (c : LinkCode) (rest : List Byte) :
    frameOfCode c rest (s.withWaiting q) = (frameOfCode c rest s).withWaiting q := by
  cases c with
  | result => exact endFrame_withWaiting s q (judged := fun u => u) (fun _ => rfl) .result rest
  | stage | readStaged | readActive | arm | disarm | flush | queryLine =>
    exact lineFrame_withWaiting s q (fun _ _ _ => rfl) rest
  | identify | mark | queryPart | engage | disengage | takeIncident | setEnables | clearOverflow | clear =>
    exact partFrame_withWaiting s q (fun _ _ _ => rfl) rest

theorem linkFrame_withWaiting (bytes : List Byte) :
    linkFrame bytes (s.withWaiting q) = (linkFrame bytes s).withWaiting q := by
  refine ite_eq_apply_ite (State.withWaiting · q) Iff.rfl rfl ?_
  cases bytes with
  | nil => rfl
  | cons code rest =>
    cases h : LinkCode.ofByte code with
    | none => simp only [h, shiftFrame_withWaiting, setHeld_withWaiting]
    | some c => simp only [h, frameOfCode_withWaiting]

/-! ### The other commands -/

theorem setSuspect_withWaiting (line : Option LineNo) :
    setSuspect line (s.withWaiting q) = (setSuspect line s).withWaiting q := by
  cases line with
  | none => rfl
  | some i => exact ite_eq_apply_ite (State.withWaiting · q) Iff.rfl rfl rfl

theorem answerOrigin_withWaiting (t : Transaction) (o : Origin) (status : Status) (data : Data) :
    answerOrigin t o status data (s.withWaiting q) = (answerOrigin t o status data s).withWaiting q := by
  simp only [answerOrigin, originEntry, withWaiting_intake, answerEntry_withWaiting]
  split
  · rfl
  · cases status with
    | okay => rfl
    | error => simp [memoryFault, setSuspect_withWaiting]

theorem systemResetEffects_withWaiting :
    systemResetEffects (s.withWaiting q) = (systemResetEffects s).withWaiting q := by
  have lines : allLines.foldl resetLine (s.withWaiting q) = (allLines.foldl resetLine s).withWaiting q :=
    List.foldl_hom (fun t : State => t.withWaiting q) fun t i => by simp [resetLine, cancelPending_withWaiting]
  rw [systemResetEffects, systemResetEffects, lines]
  generalize allLines.foldl resetLine s = u
  rfl

theorem expire_withWaiting (p : Port) : expire p (s.withWaiting q) = (expire p s).withWaiting q := by
  cases p <;> rfl

end

/-- A command that is no frame with a known code does the same to a state with other commands waiting. -/
theorem block_withWaiting {c : Instr} (hc : Instr.linkCommand c = none) {s t : State} (h : exec c s = .next t)
    (q : List Instr) : exec c (s.withWaiting q) = .next (t.withWaiting q) := by
  cases c with
  | requestAcceptance p access addr size =>
    cases h
    refine congrArg Host.Outcome.next (ite_eq_apply_ite (State.withWaiting · q) ?_ rfl ?_)
    · simp
    · simp
  | take =>
    cases h
    refine congrArg Host.Outcome.next (ite_eq_apply_ite (State.withWaiting · q) Iff.rfl rfl ?_)
    simp only [nextTake_withWaiting, takeEntry_withWaiting]
    split <;> rfl
  | memoryAnswer status data =>
    cases h
    refine congrArg Host.Outcome.next ?_
    simp only [withWaiting_memQueue]
    split
    · rfl
    · split
      · rfl
      · exact answerOrigin_withWaiting { s with memQueue := _ } q _ _ status data
  | answerDelivery p =>
    cases h
    cases p <;> rfl
  | expiry p =>
    cases h
    refine congrArg Host.Outcome.next ?_
    simp only [withWaiting_intake]
    split
    · rfl
    · exact ite_eq_apply_ite (State.withWaiting · q) Iff.rfl (expire_withWaiting s q p) rfl
  | markEdge =>
    cases h
    exact congrArg Host.Outcome.next
      (ite_eq_apply_ite (State.withWaiting · q) Iff.rfl rfl (markEvent_withWaiting s q))
  | systemReset =>
    cases h
    refine congrArg Host.Outcome.next (ite_eq_apply_ite (State.withWaiting · q) Iff.rfl rfl ?_)
    rw [systemResetEffects_withWaiting]
    rfl
  | incidentArrival source =>
    cases h
    refine congrArg Host.Outcome.next ?_
    simp only [withWaiting_handed]
    split <;> rfl
  | badframe bytes =>
    cases h
    exact congrArg Host.Outcome.next (linkFrame_withWaiting s q bytes)
  | presentTransaction | tick | powerOnReset | powerOnResetRelease | systemResetRelease =>
    cases h
    rfl
  | _ => cases hc

/-- A command does the same to a state with other commands waiting. -/
theorem exec_withWaiting {c : Instr} {s t : State} (h : exec c s = .next t) (q : List Instr) :
    exec c (s.withWaiting q) = .next (t.withWaiting q) := by
  cases hc : Instr.linkCommand c with
  | none => exact block_withWaiting hc h q
  | some x =>
    rw [exec_linkCommand hc] at h ⊢
    cases h
    rw [frameOfCode_withWaiting]

/-- Settles O2: the state with its own queue put in place is itself, so the command keeps that queue. -/
theorem commandsLeaveTheQueueAlone : Obligations.CommandsLeaveTheQueueAlone := by
  unfold Obligations.CommandsLeaveTheQueueAlone
  intro c q s t h
  have same : t = t.withWaiting s.pending :=
    Host.Outcome.next.inj (h.symm.trans (exec_withWaiting h s.pending))
  exact ⟨(congrArg State.pending same).trans rfl, exec_withWaiting h q⟩

end Sys2Proof.Machine
end
